-- ==== Sys2Proof/Word.lean ====
section
/-! DEFINITION. The word types of the SAM87RI core: its data are 8 bits wide, its program counter and
register pairs 16 bits wide (spec 00_scope.md R5, 10_state.md R20, R23, R24). -/

namespace Sys2Proof

/-- An 8-bit value: a register's contents, a memory byte, an immediate (R5). -/
abbrev Byte := BitVec 8

/-- A 16-bit value: the program counter, a register pair, a 16-bit instruction field (R23, R24). -/
abbrev Word := BitVec 16

/-- An 8-bit register-file address, 00H..FFH (R20). -/
abbrev RegAddr := BitVec 8

/-- The 4-bit number n of a working register Rn (R22). -/
abbrev WReg := BitVec 4

/-- The 3-bit number p of a working register pair: registers 2p and 2p + 1 (30_encoding.md R76, R95). -/
abbrev PairNo := BitVec 3

end Sys2Proof
end

