-- ==== Sys2Proof/Syntax.lean ====
section
/-! DEFINITION. The instruction set: one constructor of Instr for each of the 120 rows of spec/opcode_table.json
(30_encoding.md R95), the 16 condition codes (R86).

A constructor's name is the mnemonic and then its operand classes of 00_scope.md R11, destination first:
W is r (working register), Iw is Ir (through a working register), R is R (register address), Ir is IR (through
a register address), Im is IM, X is X (indexed in the register file), Ipw is Irr (memory through a working
register pair), Xs and Xl are XS and XL (indexed in memory), Da is DA, Ra is RA, Cc is cc, Ipr is IRR (through
a register pair named by an 8-bit address). Operands stand in the assembler's order, destination first. -/

namespace Sys2Proof

/-- The 16 condition codes, in the order of their 4-bit values (30_encoding.md R86). Where two mnemonics share a
code (Z/EQ, NZ/NE, C/ULT, NC/UGE) the constructor has the first. -/
inductive Cond where
  /-- 0000, F: never true. -/
  | f
  /-- 0001, LT. -/
  | lt
  /-- 0010, LE. -/
  | le
  /-- 0011, ULE. -/
  | ule
  /-- 0100, OV. -/
  | ov
  /-- 0101, MI. -/
  | mi
  /-- 0110, Z and EQ. -/
  | z
  /-- 0111, C and ULT. -/
  | c
  /-- 1000, T: always true. -/
  | t
  /-- 1001, GE. -/
  | ge
  /-- 1010, GT. -/
  | gt
  /-- 1011, UGT. -/
  | ugt
  /-- 1100, NOV. -/
  | nov
  /-- 1101, PL. -/
  | pl
  /-- 1110, NZ and NE. -/
  | nz
  /-- 1111, NC and UGE. -/
  | nc
  deriving DecidableEq, Repr

/-- An instruction with its operands: one constructor per row of spec/opcode_table.json. -/
inductive Instr where
  /-- ADD r,r: 00000010 ddddssss (R143). -/
  | addWW (dst : WReg) (src : WReg)
  /-- ADD r,Ir: 00000011 ddddssss (R143). -/
  | addWIw (dst : WReg) (src : WReg)
  /-- ADD R,R: 00000100 SSSSSSSS DDDDDDDD (R143). -/
  | addRR (dst : RegAddr) (src : RegAddr)
  /-- ADD R,IR: 00000101 SSSSSSSS DDDDDDDD (R143). -/
  | addRIr (dst : RegAddr) (src : RegAddr)
  /-- ADD R,IM: 00000110 DDDDDDDD iiiiiiii (R143). -/
  | addRIm (dst : RegAddr) (v : Byte)
  /-- ADC r,r: 00010010 ddddssss (R142). -/
  | adcWW (dst : WReg) (src : WReg)
  /-- ADC r,Ir: 00010011 ddddssss (R142). -/
  | adcWIw (dst : WReg) (src : WReg)
  /-- ADC R,R: 00010100 SSSSSSSS DDDDDDDD (R142). -/
  | adcRR (dst : RegAddr) (src : RegAddr)
  /-- ADC R,IR: 00010101 SSSSSSSS DDDDDDDD (R142). -/
  | adcRIr (dst : RegAddr) (src : RegAddr)
  /-- ADC R,IM: 00010110 DDDDDDDD iiiiiiii (R142). -/
  | adcRIm (dst : RegAddr) (v : Byte)
  /-- SUB r,r: 00100010 ddddssss (R148). -/
  | subWW (dst : WReg) (src : WReg)
  /-- SUB r,Ir: 00100011 ddddssss (R148). -/
  | subWIw (dst : WReg) (src : WReg)
  /-- SUB R,R: 00100100 SSSSSSSS DDDDDDDD (R148). -/
  | subRR (dst : RegAddr) (src : RegAddr)
  /-- SUB R,IR: 00100101 SSSSSSSS DDDDDDDD (R148). -/
  | subRIr (dst : RegAddr) (src : RegAddr)
  /-- SUB R,IM: 00100110 DDDDDDDD iiiiiiii (R148). -/
  | subRIm (dst : RegAddr) (v : Byte)
  /-- SBC r,r: 00110010 ddddssss (R147). -/
  | sbcWW (dst : WReg) (src : WReg)
  /-- SBC r,Ir: 00110011 ddddssss (R147). -/
  | sbcWIw (dst : WReg) (src : WReg)
  /-- SBC R,R: 00110100 SSSSSSSS DDDDDDDD (R147). -/
  | sbcRR (dst : RegAddr) (src : RegAddr)
  /-- SBC R,IR: 00110101 SSSSSSSS DDDDDDDD (R147). -/
  | sbcRIr (dst : RegAddr) (src : RegAddr)
  /-- SBC R,IM: 00110110 DDDDDDDD iiiiiiii (R147). -/
  | sbcRIm (dst : RegAddr) (v : Byte)
  /-- OR r,r: 01000010 ddddssss (R163). -/
  | orWW (dst : WReg) (src : WReg)
  /-- OR r,Ir: 01000011 ddddssss (R163). -/
  | orWIw (dst : WReg) (src : WReg)
  /-- OR R,R: 01000100 SSSSSSSS DDDDDDDD (R163). -/
  | orRR (dst : RegAddr) (src : RegAddr)
  /-- OR R,IR: 01000101 SSSSSSSS DDDDDDDD (R163). -/
  | orRIr (dst : RegAddr) (src : RegAddr)
  /-- OR R,IM: 01000110 DDDDDDDD iiiiiiii (R163). -/
  | orRIm (dst : RegAddr) (v : Byte)
  /-- AND r,r: 01010010 ddddssss (R161). -/
  | andWW (dst : WReg) (src : WReg)
  /-- AND r,Ir: 01010011 ddddssss (R161). -/
  | andWIw (dst : WReg) (src : WReg)
  /-- AND R,R: 01010100 SSSSSSSS DDDDDDDD (R161). -/
  | andRR (dst : RegAddr) (src : RegAddr)
  /-- AND R,IR: 01010101 SSSSSSSS DDDDDDDD (R161). -/
  | andRIr (dst : RegAddr) (src : RegAddr)
  /-- AND R,IM: 01010110 DDDDDDDD iiiiiiii (R161). -/
  | andRIm (dst : RegAddr) (v : Byte)
  /-- TCM r,r: 01100010 ddddssss (R185). -/
  | tcmWW (dst : WReg) (src : WReg)
  /-- TCM r,Ir: 01100011 ddddssss (R185). -/
  | tcmWIw (dst : WReg) (src : WReg)
  /-- TCM R,R: 01100100 SSSSSSSS DDDDDDDD (R185). -/
  | tcmRR (dst : RegAddr) (src : RegAddr)
  /-- TCM R,IR: 01100101 SSSSSSSS DDDDDDDD (R185). -/
  | tcmRIr (dst : RegAddr) (src : RegAddr)
  /-- TCM R,IM: 01100110 DDDDDDDD iiiiiiii (R185). -/
  | tcmRIm (dst : RegAddr) (v : Byte)
  /-- TM r,r: 01110010 ddddssss (R186). -/
  | tmWW (dst : WReg) (src : WReg)
  /-- TM r,Ir: 01110011 ddddssss (R186). -/
  | tmWIw (dst : WReg) (src : WReg)
  /-- TM R,R: 01110100 SSSSSSSS DDDDDDDD (R186). -/
  | tmRR (dst : RegAddr) (src : RegAddr)
  /-- TM R,IR: 01110101 SSSSSSSS DDDDDDDD (R186). -/
  | tmRIr (dst : RegAddr) (src : RegAddr)
  /-- TM R,IM: 01110110 DDDDDDDD iiiiiiii (R186). -/
  | tmRIm (dst : RegAddr) (v : Byte)
  /-- CP r,r: 10100010 ddddssss (R144). -/
  | cpWW (dst : WReg) (src : WReg)
  /-- CP r,Ir: 10100011 ddddssss (R144). -/
  | cpWIw (dst : WReg) (src : WReg)
  /-- CP R,R: 10100100 SSSSSSSS DDDDDDDD (R144). -/
  | cpRR (dst : RegAddr) (src : RegAddr)
  /-- CP R,IR: 10100101 SSSSSSSS DDDDDDDD (R144). -/
  | cpRIr (dst : RegAddr) (src : RegAddr)
  /-- CP R,IM: 10100110 DDDDDDDD iiiiiiii (R144). -/
  | cpRIm (dst : RegAddr) (v : Byte)
  /-- XOR r,r: 10110010 ddddssss (R164). -/
  | xorWW (dst : WReg) (src : WReg)
  /-- XOR r,Ir: 10110011 ddddssss (R164). -/
  | xorWIw (dst : WReg) (src : WReg)
  /-- XOR R,R: 10110100 SSSSSSSS DDDDDDDD (R164). -/
  | xorRR (dst : RegAddr) (src : RegAddr)
  /-- XOR R,IR: 10110101 SSSSSSSS DDDDDDDD (R164). -/
  | xorRIr (dst : RegAddr) (src : RegAddr)
  /-- XOR R,IM: 10110110 DDDDDDDD iiiiiiii (R164). -/
  | xorRIm (dst : RegAddr) (v : Byte)
  /-- DEC R: 00000000 DDDDDDDD (R145). -/
  | decR (dst : RegAddr)
  /-- DEC IR: 00000001 DDDDDDDD (R145). -/
  | decIr (dst : RegAddr)
  /-- RLC R: 00010000 DDDDDDDD (R192). -/
  | rlcR (dst : RegAddr)
  /-- RLC IR: 00010001 DDDDDDDD (R192). -/
  | rlcIr (dst : RegAddr)
  /-- INC R: 00100000 DDDDDDDD (R146). -/
  | incR (dst : RegAddr)
  /-- INC IR: 00100001 DDDDDDDD (R146). -/
  | incIr (dst : RegAddr)
  /-- POP R: 01010000 DDDDDDDD (R120). -/
  | popR (dst : RegAddr)
  /-- POP IR: 01010001 DDDDDDDD (R120). -/
  | popIr (dst : RegAddr)
  /-- COM R: 01100000 DDDDDDDD (R162). -/
  | comR (dst : RegAddr)
  /-- COM IR: 01100001 DDDDDDDD (R162). -/
  | comIr (dst : RegAddr)
  /-- PUSH R: 01110000 SSSSSSSS (R121). -/
  | pushR (src : RegAddr)
  /-- PUSH IR: 01110001 SSSSSSSS (R121). -/
  | pushIr (src : RegAddr)
  /-- RL R: 10010000 DDDDDDDD (R191). -/
  | rlR (dst : RegAddr)
  /-- RL IR: 10010001 DDDDDDDD (R191). -/
  | rlIr (dst : RegAddr)
  /-- CLR R: 10110000 DDDDDDDD (R110). -/
  | clrR (dst : RegAddr)
  /-- CLR IR: 10110001 DDDDDDDD (R110). -/
  | clrIr (dst : RegAddr)
  /-- RRC R: 11000000 DDDDDDDD (R194). -/
  | rrcR (dst : RegAddr)
  /-- RRC IR: 11000001 DDDDDDDD (R194). -/
  | rrcIr (dst : RegAddr)
  /-- SRA R: 11010000 DDDDDDDD (R195). -/
  | sraR (dst : RegAddr)
  /-- SRA IR: 11010001 DDDDDDDD (R195). -/
  | sraIr (dst : RegAddr)
  /-- RR R: 11100000 DDDDDDDD (R193). -/
  | rrR (dst : RegAddr)
  /-- RR IR: 11100001 DDDDDDDD (R193). -/
  | rrIr (dst : RegAddr)
  /-- INC r: dddd1110 (R146). -/
  | incW (dst : WReg)
  /-- JP IRR: 00110000 DDDDDDDD (R173). -/
  | jpIpr (dst : RegAddr)
  /-- JP cc,DA: cccc1101 aaaaaaaa aaaaaaaa (R173). -/
  | jpCcDa (cc : Cond) (target : Word)
  /-- JR cc,RA: cccc1011 aaaaaaaa (R174). -/
  | jrCcRa (cc : Cond) (off : Byte)
  /-- CALL IRR: 11110100 DDDDDDDD (R171). -/
  | callIpr (dst : RegAddr)
  /-- CALL DA: 11110110 aaaaaaaa aaaaaaaa (R171). -/
  | callDa (target : Word)
  /-- LD r,IM: dddd1100 iiiiiiii (R111). -/
  | ldWIm (dst : WReg) (v : Byte)
  /-- LD r,R: dddd1000 SSSSSSSS (R111). -/
  | ldWR (dst : WReg) (src : RegAddr)
  /-- LD R,r: ssss1001 DDDDDDDD (R111). -/
  | ldRW (dst : RegAddr) (src : WReg)
  /-- LD r,Ir: 11000111 ddddssss (R111). -/
  | ldWIw (dst : WReg) (src : WReg)
  /-- LD Ir,r: 11010111 ddddssss (R111). -/
  | ldIwW (dst : WReg) (src : WReg)
  /-- LD R,R: 11100100 SSSSSSSS DDDDDDDD (R111). -/
  | ldRR (dst : RegAddr) (src : RegAddr)
  /-- LD R,IR: 11100101 SSSSSSSS DDDDDDDD (R111). -/
  | ldRIr (dst : RegAddr) (src : RegAddr)
  /-- LD R,IM: 11100110 DDDDDDDD iiiiiiii (R111). -/
  | ldRIm (dst : RegAddr) (v : Byte)
  /-- LD IR,IM: 11010110 DDDDDDDD iiiiiiii (R111). -/
  | ldIrIm (dst : RegAddr) (v : Byte)
  /-- LD IR,R: 11110101 SSSSSSSS DDDDDDDD (R111). -/
  | ldIrR (dst : RegAddr) (src : RegAddr)
  /-- LD r,X[r]: 10000111 ddddssss xxxxxxxx (R111). -/
  | ldWX (dst : WReg) (x : Byte) (n : WReg)
  /-- LD X[r],r: 10010111 ssssdddd xxxxxxxx (R111). -/
  | ldXW (x : Byte) (n : WReg) (src : WReg)
  /-- LDC r,Irr: 11000011 ddddppp0 (R113). -/
  | ldcWIpw (dst : WReg) (p : PairNo)
  /-- LDC Irr,r: 11010011 ssssppp0 (R114). -/
  | ldcIpwW (p : PairNo) (src : WReg)
  /-- LDC r,XS[rr]: 11100111 ddddppp0 xxxxxxxx (R113). -/
  | ldcWXs (dst : WReg) (p : PairNo) (x : Byte)
  /-- LDC XS[rr],r: 11110111 ssssppp0 xxxxxxxx (R114). -/
  | ldcXsW (p : PairNo) (x : Byte) (src : WReg)
  /-- LDC r,XL[rr]: 10100111 ddddppp0 wwwwwwww wwwwwwww (R113). -/
  | ldcWXl (dst : WReg) (p : PairNo) (w : Word)
  /-- LDC XL[rr],r: 10110111 ssssppp0 wwwwwwww wwwwwwww (R114). -/
  | ldcXlW (p : PairNo) (w : Word) (src : WReg)
  /-- LDC r,DA: 10100111 dddd0000 wwwwwwww wwwwwwww (R113). -/
  | ldcWDa (dst : WReg) (w : Word)
  /-- LDC DA,r: 10110111 ssss0000 wwwwwwww wwwwwwww (R114). -/
  | ldcDaW (w : Word) (src : WReg)
  /-- LDE r,Irr: 11000011 ddddppp1 (R115). -/
  | ldeWIpw (dst : WReg) (p : PairNo)
  /-- LDE Irr,r: 11010011 ssssppp1 (R115). -/
  | ldeIpwW (p : PairNo) (src : WReg)
  /-- LDE r,XS[rr]: 11100111 ddddppp1 xxxxxxxx (R115). -/
  | ldeWXs (dst : WReg) (p : PairNo) (x : Byte)
  /-- LDE XS[rr],r: 11110111 ssssppp1 xxxxxxxx (R115). -/
  | ldeXsW (p : PairNo) (x : Byte) (src : WReg)
  /-- LDE r,XL[rr]: 10100111 ddddppp1 wwwwwwww wwwwwwww (R115). -/
  | ldeWXl (dst : WReg) (p : PairNo) (w : Word)
  /-- LDE XL[rr],r: 10110111 ssssppp1 wwwwwwww wwwwwwww (R115). -/
  | ldeXlW (p : PairNo) (w : Word) (src : WReg)
  /-- LDE r,DA: 10100111 dddd0001 wwwwwwww wwwwwwww (R115). -/
  | ldeWDa (dst : WReg) (w : Word)
  /-- LDE DA,r: 10110111 ssss0001 wwwwwwww wwwwwwww (R115). -/
  | ldeDaW (w : Word) (src : WReg)
  /-- LDCD r,Irr: 11100010 ddddppp0 (R116). -/
  | ldcd (dst : WReg) (p : PairNo)
  /-- LDED r,Irr: 11100010 ddddppp1 (R117). -/
  | lded (dst : WReg) (p : PairNo)
  /-- LDCI r,Irr: 11100011 ddddppp0 (R118). -/
  | ldci (dst : WReg) (p : PairNo)
  /-- LDEI r,Irr: 11100011 ddddppp1 (R119). -/
  | ldei (dst : WReg) (p : PairNo)
  /-- IDLE: 01101111 (R203). -/
  | idle
  /-- STOP: 01111111 (R207). -/
  | stop
  /-- DI: 10001111 (R201). -/
  | di
  /-- EI: 10011111 (R202). -/
  | ei
  /-- RET: 10101111 (R175). -/
  | ret
  /-- IRET: 10111111 (R172). -/
  | iret
  /-- RCF: 11001111 (R205). -/
  | rcf
  /-- SCF: 11011111 (R206). -/
  | scf
  /-- CCF: 11101111 (R200). -/
  | ccf
  /-- NOP: 11111111 (R204). -/
  | nop
  deriving DecidableEq, Repr

end Sys2Proof
end

