-- ==== Sys2Proof/WellFormed.lean ====
section
/-! DEFINITION. Which instruction terms the encoding admits (30_encoding.md R91): every value of every field,
but for the two restrictions below. -/

namespace Sys2Proof

/-- The long-index forms cannot use register pair RR0: the pair field 0 selects direct addressing in the same
opcodes (30_encoding.md R80, R87). -/
def Instr.longIndexPairOk : Instr → Bool
  | .ldcWXl _ p _ | .ldcXlW p _ _ | .ldeWXl _ p _ | .ldeXlW p _ _ => p != 0
  | .addWW _ _ | .addWIw _ _ | .addRR _ _ | .addRIr _ _ | .addRIm _ _ | .adcWW _ _ | .adcWIw _ _ | .adcRR _ _
  | .adcRIr _ _ | .adcRIm _ _ | .subWW _ _ | .subWIw _ _ | .subRR _ _ | .subRIr _ _ | .subRIm _ _ | .sbcWW _ _
  | .sbcWIw _ _ | .sbcRR _ _ | .sbcRIr _ _ | .sbcRIm _ _ | .orWW _ _ | .orWIw _ _ | .orRR _ _ | .orRIr _ _
  | .orRIm _ _ | .andWW _ _ | .andWIw _ _ | .andRR _ _ | .andRIr _ _ | .andRIm _ _ | .tcmWW _ _ | .tcmWIw _ _
  | .tcmRR _ _ | .tcmRIr _ _ | .tcmRIm _ _ | .tmWW _ _ | .tmWIw _ _ | .tmRR _ _ | .tmRIr _ _ | .tmRIm _ _
  | .cpWW _ _ | .cpWIw _ _ | .cpRR _ _ | .cpRIr _ _ | .cpRIm _ _ | .xorWW _ _ | .xorWIw _ _ | .xorRR _ _
  | .xorRIr _ _ | .xorRIm _ _ | .decR _ | .decIr _ | .rlcR _ | .rlcIr _ | .incR _ | .incIr _ | .popR _
  | .popIr _ | .comR _ | .comIr _ | .pushR _ | .pushIr _ | .rlR _ | .rlIr _ | .clrR _ | .clrIr _ | .rrcR _
  | .rrcIr _ | .sraR _ | .sraIr _ | .rrR _ | .rrIr _ | .incW _ | .jpIpr _ | .jpCcDa _ _ | .jrCcRa _ _
  | .callIpr _ | .callDa _ | .ldWIm _ _ | .ldWR _ _ | .ldRW _ _ | .ldWIw _ _ | .ldIwW _ _ | .ldRR _ _
  | .ldRIr _ _ | .ldRIm _ _ | .ldIrIm _ _ | .ldIrR _ _ | .ldWX _ _ _ | .ldXW _ _ _ | .ldcWIpw _ _
  | .ldcIpwW _ _ | .ldcWXs _ _ _ | .ldcXsW _ _ _ | .ldcWDa _ _ | .ldcDaW _ _ | .ldeWIpw _ _ | .ldeIpwW _ _
  | .ldeWXs _ _ _ | .ldeXsW _ _ _ | .ldeWDa _ _ | .ldeDaW _ _ | .ldcd _ _ | .lded _ _ | .ldci _ _ | .ldei _ _
  | .idle | .stop | .di | .ei | .ret | .iret | .rcf | .scf | .ccf | .nop => true

/-- A register pair named by an 8-bit address has an even address (30_encoding.md R77, 10_state.md R23). -/
def Instr.pairAddrOk : Instr → Bool
  | .jpIpr d | .callIpr d => !d.getLsbD 0
  | .addWW _ _ | .addWIw _ _ | .addRR _ _ | .addRIr _ _ | .addRIm _ _ | .adcWW _ _ | .adcWIw _ _ | .adcRR _ _
  | .adcRIr _ _ | .adcRIm _ _ | .subWW _ _ | .subWIw _ _ | .subRR _ _ | .subRIr _ _ | .subRIm _ _ | .sbcWW _ _
  | .sbcWIw _ _ | .sbcRR _ _ | .sbcRIr _ _ | .sbcRIm _ _ | .orWW _ _ | .orWIw _ _ | .orRR _ _ | .orRIr _ _
  | .orRIm _ _ | .andWW _ _ | .andWIw _ _ | .andRR _ _ | .andRIr _ _ | .andRIm _ _ | .tcmWW _ _ | .tcmWIw _ _
  | .tcmRR _ _ | .tcmRIr _ _ | .tcmRIm _ _ | .tmWW _ _ | .tmWIw _ _ | .tmRR _ _ | .tmRIr _ _ | .tmRIm _ _
  | .cpWW _ _ | .cpWIw _ _ | .cpRR _ _ | .cpRIr _ _ | .cpRIm _ _ | .xorWW _ _ | .xorWIw _ _ | .xorRR _ _
  | .xorRIr _ _ | .xorRIm _ _ | .decR _ | .decIr _ | .rlcR _ | .rlcIr _ | .incR _ | .incIr _ | .popR _
  | .popIr _ | .comR _ | .comIr _ | .pushR _ | .pushIr _ | .rlR _ | .rlIr _ | .clrR _ | .clrIr _ | .rrcR _
  | .rrcIr _ | .sraR _ | .sraIr _ | .rrR _ | .rrIr _ | .incW _ | .jpCcDa _ _ | .jrCcRa _ _ | .callDa _
  | .ldWIm _ _ | .ldWR _ _ | .ldRW _ _ | .ldWIw _ _ | .ldIwW _ _ | .ldRR _ _ | .ldRIr _ _ | .ldRIm _ _
  | .ldIrIm _ _ | .ldIrR _ _ | .ldWX _ _ _ | .ldXW _ _ _ | .ldcWIpw _ _ | .ldcIpwW _ _ | .ldcWXs _ _ _
  | .ldcXsW _ _ _ | .ldcWXl _ _ _ | .ldcXlW _ _ _ | .ldcWDa _ _ | .ldcDaW _ _ | .ldeWIpw _ _ | .ldeIpwW _ _
  | .ldeWXs _ _ _ | .ldeXsW _ _ _ | .ldeWXl _ _ _ | .ldeXlW _ _ _ | .ldeWDa _ _ | .ldeDaW _ _ | .ldcd _ _
  | .lded _ _ | .ldci _ _ | .ldei _ _ | .idle | .stop | .di | .ei | .ret | .iret | .rcf | .scf | .ccf | .nop => true

/-- The instruction is one the encoding admits. -/
def Instr.wf (i : Instr) : Bool := i.longIndexPairOk && i.pairAddrOk

end Sys2Proof
end

