-- ==== Sys2Proof/Decode.lean ====
section
/-! DEFINITION. The decoder (30_encoding.md R70, R71, R84 to R92), total on any bytes, rejecting by name, and after
it the encoder, written from the encodings of the instruction pages; and the numbering of table words.
The opcode map stands column by column as in R88. -/

namespace Sys2Proof

/-- The left nibble of a byte, bits 7:4 (30_encoding.md R71). -/
def hiNibble (b : Byte) : BitVec 4 := b.extractLsb' 4 4

/-- The right nibble of a byte, bits 3:0. -/
def loNibble (b : Byte) : BitVec 4 := b.extractLsb' 0 4

/-- A byte drawn as two nibbles, the left one in bits 7:4. -/
def ofNibbles (hi lo : BitVec 4) : Byte := hi ++ lo

/-- The register number of a 4-bit pair field, its bits 3:1 (30_encoding.md R76, R95). -/
def pairOfField (f : BitVec 4) : PairNo := f.extractLsb' 1 3

/-- Bit 0 of a pair field: false for program memory, true for external data memory (30_encoding.md R87). -/
def fieldIsData (f : BitVec 4) : Bool := f.getLsbD 0

/-- The pair field of pair p with the memory-space bit (R87). -/
def pairField (p : PairNo) (data : Bool) : BitVec 4 := p ++ BitVec.ofBool data

/-- A 16-bit field from its high and low byte. -/
def ofBytes (hi lo : Byte) : Word := hi ++ lo

/-- The high byte of a 16-bit value. -/
def hiByte (w : Word) : Byte := w.extractLsb' 8 8

/-- The low byte of a 16-bit value. -/
def loByte (w : Word) : Byte := w.extractLsb' 0 8

/-- The condition of a 4-bit condition code (30_encoding.md R86). -/
def Cond.ofCode (code : BitVec 4) : Cond :=
  match code with
  | 0x0#4 => .f | 0x1#4 => .lt | 0x2#4 => .le | 0x3#4 => .ule
  | 0x4#4 => .ov | 0x5#4 => .mi | 0x6#4 => .z | 0x7#4 => .c
  | 0x8#4 => .t | 0x9#4 => .ge | 0xA#4 => .gt | 0xB#4 => .ugt
  | 0xC#4 => .nov | 0xD#4 => .pl | 0xE#4 => .nz | _ => .nc

/-- The 4-bit condition code of a condition (30_encoding.md R86). -/
def Cond.code : Cond → BitVec 4
  | .f => 0x0#4 | .lt => 0x1#4 | .le => 0x2#4 | .ule => 0x3#4
  | .ov => 0x4#4 | .mi => 0x5#4 | .z => 0x6#4 | .c => 0x7#4
  | .t => 0x8#4 | .ge => 0x9#4 | .gt => 0xA#4 | .ugt => 0xB#4
  | .nov => 0xC#4 | .pl => 0xD#4 | .nz => 0xE#4 | .nc => 0xF#4

/-- A cell of the opcode map: no instruction, or an instruction of 1 to 4 bytes as a function of the bytes that
follow the first. -/
inductive OpcodeCell where
  | undefined
  | one (i : Instr)
  | two (f : Byte → Instr)
  | three (f : Byte → Byte → Instr)
  | four (f : Byte → Byte → Byte → Instr)

/-- The length of the instruction of a cell (30_encoding.md R70); an undefined cell has none. -/
def OpcodeCell.length : OpcodeCell → Option Nat
  | .undefined => none
  | .one _ => some 1
  | .two _ => some 2
  | .three _ => some 3
  | .four _ => some 4

/-- Format F4 with two working registers: destination in the left nibble (R71, R84). -/
def cellWW (f : WReg → WReg → Instr) : OpcodeCell := .two fun b => f (hiNibble b) (loNibble b)

/-- Format F6 with the source byte before the destination byte; f takes the destination first (R84). -/
def cellSrcDst (f : RegAddr → RegAddr → Instr) : OpcodeCell := .three fun src dst => f dst src

/-- Format F4 with a working register and a pair field, whose bit 0 picks the program-memory or the data-memory
instruction (R87). -/
def cellPair (pm dm : WReg → PairNo → Instr) : OpcodeCell :=
  .two fun b => if fieldIsData (loNibble b) then dm (hiNibble b) (pairOfField (loNibble b))
    else pm (hiNibble b) (pairOfField (loNibble b))

/-- Format F7 with a working register, a pair field and a short offset (R87). -/
def cellShort (pm dm : WReg → PairNo → Byte → Instr) : OpcodeCell :=
  .three fun b x => if fieldIsData (loNibble b) then dm (hiNibble b) (pairOfField (loNibble b)) x
    else pm (hiNibble b) (pairOfField (loNibble b)) x

/-- Format F10, opcodes A7 and B7: pair field 0 or 1 is a direct address in program or data memory, any other the
long index; the 16-bit field has its low byte first (R71, R87). -/
def cellLong (pmDirect dmDirect : WReg → Word → Instr) (pm dm : WReg → PairNo → Word → Instr) : OpcodeCell :=
  .four fun b wlo whi =>
    if pairOfField (loNibble b) = 0 then
      if fieldIsData (loNibble b) then dmDirect (hiNibble b) (ofBytes whi wlo)
      else pmDirect (hiNibble b) (ofBytes whi wlo)
    else if fieldIsData (loNibble b) then dm (hiNibble b) (pairOfField (loNibble b)) (ofBytes whi wlo)
    else pm (hiNibble b) (pairOfField (loNibble b)) (ofBytes whi wlo)

/-- Column 0 of the opcode map, by the upper nibble of the first byte (30_encoding.md R88, R89, R90). -/
def opcodeColumn0 (hi : BitVec 4) : OpcodeCell :=
  match hi with
  | 0x0#4 => .two .decR
  | 0x1#4 => .two .rlcR
  | 0x2#4 => .two .incR
  | 0x3#4 => .two .jpIpr
  | 0x5#4 => .two .popR
  | 0x6#4 => .two .comR
  | 0x7#4 => .two .pushR
  | 0x9#4 => .two .rlR
  | 0xB#4 => .two .clrR
  | 0xC#4 => .two .rrcR
  | 0xD#4 => .two .sraR
  | 0xE#4 => .two .rrR
  | _ => .undefined

/-- Column 1 of the opcode map, by the upper nibble of the first byte (30_encoding.md R88, R89, R90). -/
def opcodeColumn1 (hi : BitVec 4) : OpcodeCell :=
  match hi with
  | 0x0#4 => .two .decIr
  | 0x1#4 => .two .rlcIr
  | 0x2#4 => .two .incIr
  | 0x5#4 => .two .popIr
  | 0x6#4 => .two .comIr
  | 0x7#4 => .two .pushIr
  | 0x9#4 => .two .rlIr
  | 0xB#4 => .two .clrIr
  | 0xC#4 => .two .rrcIr
  | 0xD#4 => .two .sraIr
  | 0xE#4 => .two .rrIr
  | _ => .undefined

/-- Column 2 of the opcode map, by the upper nibble of the first byte (30_encoding.md R88, R89, R90). -/
def opcodeColumn2 (hi : BitVec 4) : OpcodeCell :=
  match hi with
  | 0x0#4 => cellWW .addWW
  | 0x1#4 => cellWW .adcWW
  | 0x2#4 => cellWW .subWW
  | 0x3#4 => cellWW .sbcWW
  | 0x4#4 => cellWW .orWW
  | 0x5#4 => cellWW .andWW
  | 0x6#4 => cellWW .tcmWW
  | 0x7#4 => cellWW .tmWW
  | 0xA#4 => cellWW .cpWW
  | 0xB#4 => cellWW .xorWW
  | 0xE#4 => cellPair .ldcd .lded
  | _ => .undefined

/-- Column 3 of the opcode map, by the upper nibble of the first byte (30_encoding.md R88, R89, R90). -/
def opcodeColumn3 (hi : BitVec 4) : OpcodeCell :=
  match hi with
  | 0x0#4 => cellWW .addWIw
  | 0x1#4 => cellWW .adcWIw
  | 0x2#4 => cellWW .subWIw
  | 0x3#4 => cellWW .sbcWIw
  | 0x4#4 => cellWW .orWIw
  | 0x5#4 => cellWW .andWIw
  | 0x6#4 => cellWW .tcmWIw
  | 0x7#4 => cellWW .tmWIw
  | 0xA#4 => cellWW .cpWIw
  | 0xB#4 => cellWW .xorWIw
  | 0xC#4 => cellPair .ldcWIpw .ldeWIpw
  | 0xD#4 => cellPair (fun s p => .ldcIpwW p s) (fun s p => .ldeIpwW p s)
  | 0xE#4 => cellPair .ldci .ldei
  | _ => .undefined

/-- Column 4 of the opcode map, by the upper nibble of the first byte (30_encoding.md R88, R89, R90). -/
def opcodeColumn4 (hi : BitVec 4) : OpcodeCell :=
  match hi with
  | 0x0#4 => cellSrcDst .addRR
  | 0x1#4 => cellSrcDst .adcRR
  | 0x2#4 => cellSrcDst .subRR
  | 0x3#4 => cellSrcDst .sbcRR
  | 0x4#4 => cellSrcDst .orRR
  | 0x5#4 => cellSrcDst .andRR
  | 0x6#4 => cellSrcDst .tcmRR
  | 0x7#4 => cellSrcDst .tmRR
  | 0xA#4 => cellSrcDst .cpRR
  | 0xB#4 => cellSrcDst .xorRR
  | 0xE#4 => cellSrcDst .ldRR
  | 0xF#4 => .two .callIpr
  | _ => .undefined

/-- Column 5 of the opcode map, by the upper nibble of the first byte (30_encoding.md R88, R89, R90). -/
def opcodeColumn5 (hi : BitVec 4) : OpcodeCell :=
  match hi with
  | 0x0#4 => cellSrcDst .addRIr
  | 0x1#4 => cellSrcDst .adcRIr
  | 0x2#4 => cellSrcDst .subRIr
  | 0x3#4 => cellSrcDst .sbcRIr
  | 0x4#4 => cellSrcDst .orRIr
  | 0x5#4 => cellSrcDst .andRIr
  | 0x6#4 => cellSrcDst .tcmRIr
  | 0x7#4 => cellSrcDst .tmRIr
  | 0xA#4 => cellSrcDst .cpRIr
  | 0xB#4 => cellSrcDst .xorRIr
  | 0xE#4 => cellSrcDst .ldRIr
  | 0xF#4 => cellSrcDst .ldIrR
  | _ => .undefined

/-- Column 6 of the opcode map, by the upper nibble of the first byte (30_encoding.md R88, R89, R90). -/
def opcodeColumn6 (hi : BitVec 4) : OpcodeCell :=
  match hi with
  | 0x0#4 => .three .addRIm
  | 0x1#4 => .three .adcRIm
  | 0x2#4 => .three .subRIm
  | 0x3#4 => .three .sbcRIm
  | 0x4#4 => .three .orRIm
  | 0x5#4 => .three .andRIm
  | 0x6#4 => .three .tcmRIm
  | 0x7#4 => .three .tmRIm
  | 0xA#4 => .three .cpRIm
  | 0xB#4 => .three .xorRIm
  | 0xD#4 => .three .ldIrIm
  | 0xE#4 => .three .ldRIm
  | 0xF#4 => .three fun hi lo => .callDa (ofBytes hi lo)
  | _ => .undefined

/-- Column 7 of the opcode map, by the upper nibble of the first byte (30_encoding.md R88, R89, R90). -/
def opcodeColumn7 (hi : BitVec 4) : OpcodeCell :=
  match hi with
  | 0x8#4 => .three fun b x => .ldWX (hiNibble b) x (loNibble b)
  | 0x9#4 => .three fun b x => .ldXW x (loNibble b) (hiNibble b)
  | 0xA#4 => cellLong .ldcWDa .ldeWDa .ldcWXl .ldeWXl
  | 0xB#4 => cellLong (fun s w => .ldcDaW w s) (fun s w => .ldeDaW w s)
      (fun s p w => .ldcXlW p w s) (fun s p w => .ldeXlW p w s)
  | 0xC#4 => cellWW .ldWIw
  | 0xD#4 => cellWW .ldIwW
  | 0xE#4 => cellShort .ldcWXs .ldeWXs
  | 0xF#4 => cellShort (fun s p x => .ldcXsW p x s) (fun s p x => .ldeXsW p x s)
  | _ => .undefined

/-- Column F of the opcode map, by the upper nibble of the first byte (30_encoding.md R88, R89, R90). -/
def opcodeColumnF (hi : BitVec 4) : OpcodeCell :=
  match hi with
  | 0x6#4 => .one .idle
  | 0x7#4 => .one .stop
  | 0x8#4 => .one .di
  | 0x9#4 => .one .ei
  | 0xA#4 => .one .ret
  | 0xB#4 => .one .iret
  | 0xC#4 => .one .rcf
  | 0xD#4 => .one .scf
  | 0xE#4 => .one .ccf
  | 0xF#4 => .one .nop
  | _ => .undefined

/-- The opcode map: the cell of a first byte with upper nibble hi and lower nibble lo (30_encoding.md R88). Columns
8, 9, B, C, D and E hold one instruction for all 16 rows, the upper nibble being a working register number or a
condition code; column A is empty. -/
def opcodeMap (hi lo : BitVec 4) : OpcodeCell :=
  match lo with
  | 0x0#4 => opcodeColumn0 hi
  | 0x1#4 => opcodeColumn1 hi
  | 0x2#4 => opcodeColumn2 hi
  | 0x3#4 => opcodeColumn3 hi
  | 0x4#4 => opcodeColumn4 hi
  | 0x5#4 => opcodeColumn5 hi
  | 0x6#4 => opcodeColumn6 hi
  | 0x7#4 => opcodeColumn7 hi
  | 0x8#4 => .two fun a => .ldWR hi a
  | 0x9#4 => .two fun a => .ldRW a hi
  | 0xA#4 => .undefined
  | 0xB#4 => .two fun off => .jrCcRa (Cond.ofCode hi) off
  | 0xC#4 => .two fun v => .ldWIm hi v
  | 0xD#4 => .three fun ahi alo => .jpCcDa (Cond.ofCode hi) (ofBytes ahi alo)
  | 0xE#4 => .one (.incW hi)
  | _ => opcodeColumnF hi

/-- The cell of a first byte. -/
def opcodeCell (b1 : Byte) : OpcodeCell := opcodeMap (hiNibble b1) (loNibble b1)

/-- Why bytes do not decode. -/
inductive DecodeError where
  /-- The first byte is one of the 58 values with no instruction (30_encoding.md R90). -/
  | undefinedOpcode (b1 : Byte)
  /-- There are fewer bytes than the instruction's length (R70). -/
  | tooFewBytes
  deriving DecidableEq, Repr

/-- The instruction at the front of a list of bytes and the bytes after it (30_encoding.md R92). -/
def decode : List Byte → Except DecodeError (Instr × List Byte)
  | [] => .error .tooFewBytes
  | b1 :: rest =>
    match opcodeCell b1, rest with
    | .undefined, _ => .error (.undefinedOpcode b1)
    | .one i, _ => .ok (i, rest)
    | .two f, b2 :: r => .ok (f b2, r)
    | .three f, b2 :: b3 :: r => .ok (f b2 b3, r)
    | .four f, b2 :: b3 :: b4 :: r => .ok (f b2 b3 b4, r)
    | _, _ => .error .tooFewBytes

/-- The bytes of an instruction, the opcode byte first (30_encoding.md R71, R84, R85, R87; the format of each
instruction page). -/
def encode : Instr → List Byte
  | .addWW dst src => [0x02#8, ofNibbles dst src]
  | .addWIw dst src => [0x03#8, ofNibbles dst src]
  | .addRR dst src => [0x04#8, src, dst]
  | .addRIr dst src => [0x05#8, src, dst]
  | .addRIm dst v => [0x06#8, dst, v]
  | .adcWW dst src => [0x12#8, ofNibbles dst src]
  | .adcWIw dst src => [0x13#8, ofNibbles dst src]
  | .adcRR dst src => [0x14#8, src, dst]
  | .adcRIr dst src => [0x15#8, src, dst]
  | .adcRIm dst v => [0x16#8, dst, v]
  | .subWW dst src => [0x22#8, ofNibbles dst src]
  | .subWIw dst src => [0x23#8, ofNibbles dst src]
  | .subRR dst src => [0x24#8, src, dst]
  | .subRIr dst src => [0x25#8, src, dst]
  | .subRIm dst v => [0x26#8, dst, v]
  | .sbcWW dst src => [0x32#8, ofNibbles dst src]
  | .sbcWIw dst src => [0x33#8, ofNibbles dst src]
  | .sbcRR dst src => [0x34#8, src, dst]
  | .sbcRIr dst src => [0x35#8, src, dst]
  | .sbcRIm dst v => [0x36#8, dst, v]
  | .orWW dst src => [0x42#8, ofNibbles dst src]
  | .orWIw dst src => [0x43#8, ofNibbles dst src]
  | .orRR dst src => [0x44#8, src, dst]
  | .orRIr dst src => [0x45#8, src, dst]
  | .orRIm dst v => [0x46#8, dst, v]
  | .andWW dst src => [0x52#8, ofNibbles dst src]
  | .andWIw dst src => [0x53#8, ofNibbles dst src]
  | .andRR dst src => [0x54#8, src, dst]
  | .andRIr dst src => [0x55#8, src, dst]
  | .andRIm dst v => [0x56#8, dst, v]
  | .tcmWW dst src => [0x62#8, ofNibbles dst src]
  | .tcmWIw dst src => [0x63#8, ofNibbles dst src]
  | .tcmRR dst src => [0x64#8, src, dst]
  | .tcmRIr dst src => [0x65#8, src, dst]
  | .tcmRIm dst v => [0x66#8, dst, v]
  | .tmWW dst src => [0x72#8, ofNibbles dst src]
  | .tmWIw dst src => [0x73#8, ofNibbles dst src]
  | .tmRR dst src => [0x74#8, src, dst]
  | .tmRIr dst src => [0x75#8, src, dst]
  | .tmRIm dst v => [0x76#8, dst, v]
  | .cpWW dst src => [0xA2#8, ofNibbles dst src]
  | .cpWIw dst src => [0xA3#8, ofNibbles dst src]
  | .cpRR dst src => [0xA4#8, src, dst]
  | .cpRIr dst src => [0xA5#8, src, dst]
  | .cpRIm dst v => [0xA6#8, dst, v]
  | .xorWW dst src => [0xB2#8, ofNibbles dst src]
  | .xorWIw dst src => [0xB3#8, ofNibbles dst src]
  | .xorRR dst src => [0xB4#8, src, dst]
  | .xorRIr dst src => [0xB5#8, src, dst]
  | .xorRIm dst v => [0xB6#8, dst, v]
  | .decR dst => [0x00#8, dst]
  | .decIr dst => [0x01#8, dst]
  | .rlcR dst => [0x10#8, dst]
  | .rlcIr dst => [0x11#8, dst]
  | .incR dst => [0x20#8, dst]
  | .incIr dst => [0x21#8, dst]
  | .popR dst => [0x50#8, dst]
  | .popIr dst => [0x51#8, dst]
  | .comR dst => [0x60#8, dst]
  | .comIr dst => [0x61#8, dst]
  | .pushR src => [0x70#8, src]
  | .pushIr src => [0x71#8, src]
  | .rlR dst => [0x90#8, dst]
  | .rlIr dst => [0x91#8, dst]
  | .clrR dst => [0xB0#8, dst]
  | .clrIr dst => [0xB1#8, dst]
  | .rrcR dst => [0xC0#8, dst]
  | .rrcIr dst => [0xC1#8, dst]
  | .sraR dst => [0xD0#8, dst]
  | .sraIr dst => [0xD1#8, dst]
  | .rrR dst => [0xE0#8, dst]
  | .rrIr dst => [0xE1#8, dst]
  | .incW dst => [ofNibbles dst 0xE#4]
  | .jpIpr dst => [0x30#8, dst]
  | .jpCcDa cc target => [ofNibbles cc.code 0xD#4, hiByte target, loByte target]
  | .jrCcRa cc off => [ofNibbles cc.code 0xB#4, off]
  | .callIpr dst => [0xF4#8, dst]
  | .callDa target => [0xF6#8, hiByte target, loByte target]
  | .ldWIm dst v => [ofNibbles dst 0xC#4, v]
  | .ldWR dst src => [ofNibbles dst 0x8#4, src]
  | .ldRW dst src => [ofNibbles src 0x9#4, dst]
  | .ldWIw dst src => [0xC7#8, ofNibbles dst src]
  | .ldIwW dst src => [0xD7#8, ofNibbles dst src]
  | .ldRR dst src => [0xE4#8, src, dst]
  | .ldRIr dst src => [0xE5#8, src, dst]
  | .ldRIm dst v => [0xE6#8, dst, v]
  | .ldIrIm dst v => [0xD6#8, dst, v]
  | .ldIrR dst src => [0xF5#8, src, dst]
  | .ldWX dst x n => [0x87#8, ofNibbles dst n, x]
  | .ldXW x n src => [0x97#8, ofNibbles src n, x]
  | .ldcWIpw dst p => [0xC3#8, ofNibbles dst (pairField p false)]
  | .ldcIpwW p src => [0xD3#8, ofNibbles src (pairField p false)]
  | .ldcWXs dst p x => [0xE7#8, ofNibbles dst (pairField p false), x]
  | .ldcXsW p x src => [0xF7#8, ofNibbles src (pairField p false), x]
  | .ldcWXl dst p w => [0xA7#8, ofNibbles dst (pairField p false), loByte w, hiByte w]
  | .ldcXlW p w src => [0xB7#8, ofNibbles src (pairField p false), loByte w, hiByte w]
  | .ldcWDa dst w => [0xA7#8, ofNibbles dst 0x0#4, loByte w, hiByte w]
  | .ldcDaW w src => [0xB7#8, ofNibbles src 0x0#4, loByte w, hiByte w]
  | .ldeWIpw dst p => [0xC3#8, ofNibbles dst (pairField p true)]
  | .ldeIpwW p src => [0xD3#8, ofNibbles src (pairField p true)]
  | .ldeWXs dst p x => [0xE7#8, ofNibbles dst (pairField p true), x]
  | .ldeXsW p x src => [0xF7#8, ofNibbles src (pairField p true), x]
  | .ldeWXl dst p w => [0xA7#8, ofNibbles dst (pairField p true), loByte w, hiByte w]
  | .ldeXlW p w src => [0xB7#8, ofNibbles src (pairField p true), loByte w, hiByte w]
  | .ldeWDa dst w => [0xA7#8, ofNibbles dst 0x1#4, loByte w, hiByte w]
  | .ldeDaW w src => [0xB7#8, ofNibbles src 0x1#4, loByte w, hiByte w]
  | .ldcd dst p => [0xE2#8, ofNibbles dst (pairField p false)]
  | .lded dst p => [0xE2#8, ofNibbles dst (pairField p true)]
  | .ldci dst p => [0xE3#8, ofNibbles dst (pairField p false)]
  | .ldei dst p => [0xE3#8, ofNibbles dst (pairField p true)]
  | .idle => [0x6F#8]
  | .stop => [0x7F#8]
  | .di => [0x8F#8]
  | .ei => [0x9F#8]
  | .ret => [0xAF#8]
  | .iret => [0xBF#8]
  | .rcf => [0xCF#8]
  | .scf => [0xDF#8]
  | .ccf => [0xEF#8]
  | .nop => [0xFF#8]

/-- The length of an instruction in bytes (30_encoding.md R70). -/
def Instr.length (i : Instr) : Nat := (encode i).length

/-- The bytes of a table word: opcode_table.json numbers an instruction's bits from the least significant bit of
its LAST byte (30_encoding.md R95), so the first byte is the most significant of the nbits bits (log 21). Bytes
past the nbits bits, up to the four of the longest instruction, are 00H. -/
def tableBytes (nbits w : Nat) : List Byte :=
  [1, 2, 3, 4].map fun k => if 8 * k ≤ nbits then BitVec.ofNat 8 (w >>> (nbits - 8 * k)) else 0#8

/-- The instruction the decoder reads from a table word, if it reads one. -/
def decodeTableWord (nbits w : Nat) : Option Instr :=
  match decode (tableBytes nbits w) with
  | .ok (i, _) => some i
  | .error _ => none

end Sys2Proof
end

