-- ==== Sys2Proof/Config.lean ====
section
/-! DEFINITION. What an implementation fixes and what the spec leaves free: the parameters of 00_scope.md R6
as a record of plain data, the two register addresses D0 fixes (R5), and the free values, opaque constants
that no proof can evaluate. -/

namespace Sys2Proof

/-- FLAGS_ADDR, the register-file address of FLAGS (00_scope.md R5). -/
abbrev Config.flagsAddr : RegAddr := 0xD5#8

/-- SP_ADDR, the register-file address of the stack pointer (00_scope.md R5). -/
abbrev Config.spAddr : RegAddr := 0xD9#8

/-- FREE VALUE (log 8). FLAGS_LOW_READ: what bits 3..0 of the k-th read of register D5H return
(00_scope.md R6, 10_state.md R28). -/
opaque Config.flagsLowRead : Nat → BitVec 4

/-- FREE VALUE (log 15). What the external data memory cell at an address holds after the k-th drawn reset
event: "data memory: unspecified" (70_reset_and_hazards.md R250). -/
opaque Config.dataAfterReset : Nat → Nat → Byte

/-- A range of register-file addresses, both ends included. -/
structure AddrRange where
  first : RegAddr
  last : RegAddr
  deriving DecidableEq, Repr

/-- The two answers the spec names for the open parameter WAKE_WITH_IRQ_DISABLED: stay in the mode, or resume
after the IDLE or STOP instruction without an interrupt entry (92_eei_decisions.md D18). -/
inductive WakeAnswer where
  | stay
  | resume
  deriving DecidableEq, Repr

/-- The parameters D0 leaves open and "the model takes ... as an argument" (00_scope.md R6). They are carried
in the state, where no step changes them (log 1). -/
structure Params where
  /-- WR_BASE, the register-file address of working register R0. -/
  wrBase : RegAddr
  /-- PERIPH_REGS, control and peripheral registers the spec does not model. -/
  periph : List AddrRange
  /-- UNIMPL_REGS, register-file addresses with no storage. -/
  unimpl : List AddrRange
  /-- SYM_ADDR, the register-file address of the system mode register. -/
  symAddr : RegAddr
  /-- PROG_SIZE, the number of program-memory bytes present. -/
  progSize : Nat
  /-- PROG_MEM_WRITABLE, whether LDC to program memory is supported. -/
  progMemWritable : Bool
  /-- RESET_PC, the program counter after reset. -/
  resetPc : Word
  /-- IRQ_VECTOR, the program-memory address of the two-byte interrupt vector. -/
  irqVector : Nat
  /-- WAKE_WITH_IRQ_DISABLED: none while the parameter is open, as the spec leaves it. -/
  wakeIrqDisabled : Option WakeAnswer
  deriving DecidableEq, Repr

end Sys2Proof
end

