-- ==== Sys2Proof/Machine/Defaults.lean ====
section
/-! DEFINITION. The defaults of the open parameters (00_scope.md R6), "the spec's own suggestion and ... never a claim
about D0", each a definition of its own so that it can be replaced alone; and the values the model gives at reset to
registers for which the spec gives none (log 14). -/

namespace Sys2Proof.Machine

/-- WR_BASE, default C0H (R6, 92_eei_decisions.md D1; log 2). -/
def defaultWrBase : RegAddr := 0xC0#8

/-- SYM_ADDR, default DFH (R6, D9; log 4). -/
def defaultSymAddr : RegAddr := 0xDF#8

/-- PERIPH_REGS, default D0H..FFH without D5H, D9H and SYM_ADDR (R6, D2; log 3). -/
def defaultPeriph : List AddrRange :=
  [⟨0xD0#8, 0xD4#8⟩, ⟨0xD6#8, 0xD8#8⟩, ⟨0xDA#8, 0xDE#8⟩, ⟨0xE0#8, 0xFF#8⟩]

/-- UNIMPL_REGS, default empty (R6, D2; log 3). -/
def defaultUnimpl : List AddrRange := []

/-- PROG_SIZE, default 8192 (R6, D3; log 5). -/
def defaultProgSize : Nat := 8192

/-- PROG_MEM_WRITABLE, default false (R6, D20; log 17). -/
def defaultProgMemWritable : Bool := false

/-- RESET_PC, default 0100H (R6, D17; log 14). -/
def defaultResetPc : Word := 0x0100#16

/-- IRQ_VECTOR, default 0000H (R6, D14; log 12). -/
def defaultIrqVector : Nat := 0x0000

/-- WAKE_WITH_IRQ_DISABLED, OPEN (R6, D18; log 16). -/
def defaultWakeIrqDisabled : Option WakeAnswer := none

/-- The parameters at their defaults. -/
def defaultParams : Params where
  wrBase := defaultWrBase
  periph := defaultPeriph
  unimpl := defaultUnimpl
  symAddr := defaultSymAddr
  progSize := defaultProgSize
  progMemWritable := defaultProgMemWritable
  resetPc := defaultResetPc
  irqVector := defaultIrqVector
  wakeIrqDisabled := defaultWakeIrqDisabled

/-- DESIGN CHOICE, unsafe (log 14): what every general register holds after reset. -/
def resetRegister : Byte := 0x00#8

/-- DESIGN CHOICE, unsafe (log 14): what SP holds after reset, "one above the highest stack byte" where the stack lies in
general-purpose registers clear of the working registers and of PERIPH_REGS (70_reset_and_hazards.md R252 item 1; the SP
of the PUSH example, 40_load.md R121). -/
def resetSp : Byte := 0xC0#8

/-- SYM after reset: SYM.2 is 0 (10_state.md R42); the other bits are a DESIGN CHOICE, unsafe (log 14). -/
def resetSym : Byte := 0x00#8

end Sys2Proof.Machine
end

