-- ==== Sys2Proof/Machine/Memory.lean ====
section
/-! DEFINITION. A byte-addressed memory as a list of (address, byte) cells in one canonical form, addresses strictly
rising. Program memory and external data memory are both held so (10_state.md R37 to R39, 20_memory.md R65). -/

namespace Sys2Proof.Machine

/-- The cells of a memory. -/
structure Memory where
  cells : List Host.Cell
  deriving DecidableEq, Repr

/-- What a program-memory byte that nothing has written reads as. DESIGN CHOICE, unsafe (log 19): "D0 does not say
what unprogrammed memory reads" (46_cpu_control.md R204). -/
def unprogrammedByte : Byte := 0xFF#8

/-- The byte listed at an address, if one is. -/
def findCell (a : Nat) : List Host.Cell → Option Byte
  | [] => none
  | (k, v) :: rest => if k = a then some v else findCell a rest

/-- List a byte at an address, in the place of the one listed there before. -/
def insertCell (a : Nat) (v : Byte) : List Host.Cell → List Host.Cell
  | [] => [(a, v)]
  | (k, w) :: rest =>
    if a < k then (a, v) :: (k, w) :: rest
    else if a = k then (a, v) :: rest
    else (k, w) :: insertCell a v rest

/-- List nothing at an address. -/
def eraseCell (a : Nat) (cells : List Host.Cell) : List Host.Cell :=
  cells.filter fun c => c.1 != a

/-- The byte listed at an address of a partial memory, none where no cell is fitted: external data memory
(10_state.md R39). -/
def Memory.find (m : Memory) (a : Nat) : Option Byte := findCell a m.cells

/-- Store a byte in a partial memory. -/
def Memory.store (m : Memory) (a : Nat) (v : Byte) : Memory := ⟨insertCell a v m.cells⟩

/-- The byte at an address of program memory (10_state.md R38). -/
def Memory.read (m : Memory) (a : Nat) : Byte := (m.find a).getD unprogrammedByte

/-- Write a byte of program memory; writing what an unlisted address reads as removes the cell. -/
def Memory.write (m : Memory) (a : Nat) (v : Byte) : Memory :=
  if v = unprogrammedByte then ⟨eraseCell a m.cells⟩ else m.store a v

/-- The addresses of the cells rise strictly. -/
abbrev Memory.rising (m : Memory) : Prop := m.cells.Pairwise fun c d => c.1 < d.1

/-- The canonical form of program memory: addresses strictly rising, and no cell equal to what an unlisted address
reads as. -/
abbrev Memory.wf (m : Memory) : Prop := m.rising ∧ ∀ c ∈ m.cells, c.2 ≠ unprogrammedByte

end Sys2Proof.Machine
end

