-- ==== Sys2Proof/Machine/State.lean ====
section
/-! DEFINITION. The state of the machine as plain data (10_state.md R20 to R43), why a step can stop
(60_exceptions.md R221), and the state after reset. -/

namespace Sys2Proof.Machine

/-- The four bits of state of the FLAGS register (10_state.md R26). -/
structure Flags where
  /-- FLAGS.7, carry. -/
  c : Bool
  /-- FLAGS.6, zero. -/
  z : Bool
  /-- FLAGS.5, sign. -/
  s : Bool
  /-- FLAGS.4, overflow. -/
  v : Bool
  deriving DecidableEq, Repr

/-- The run mode (10_state.md R41). -/
inductive RunMode where
  | run
  | idle
  | stop
  deriving DecidableEq, Repr

/-- The interrupt requests present at a boundary. ExtIrqPending implies IrqPending (60_exceptions.md R222), so there
are three cases. -/
inductive IrqRequest where
  /-- Neither IrqPending nor ExtIrqPending. -/
  | none
  /-- IrqPending, but no external source. -/
  | onChip
  /-- IrqPending and ExtIrqPending. -/
  | external
  deriving DecidableEq, Repr

/-- What the platform answers at one boundary: the reset line and the interrupt requests (60_exceptions.md R241). -/
structure BoundaryInput where
  reset : Bool
  irq : IrqRequest
  deriving DecidableEq, Repr

/-- The two memories beside the register file (10_state.md R37). -/
inductive Space where
  | program
  | data
  deriving DecidableEq, Repr

/-- Why the spec calls an outcome unpredictable (60_exceptions.md R221). -/
inductive UnpredictableReason where
  /-- A flag-writing instruction has FLAGS as its destination (10_state.md R30). -/
  | flagsDestination
  /-- Idle mode is released while SYM.2 = 0 and WAKE_WITH_IRQ_DISABLED is open (60_exceptions.md R236). -/
  | idleReleased
  /-- Stop mode is released while SYM.2 = 0 and WAKE_WITH_IRQ_DISABLED is open (60_exceptions.md R237). -/
  | stopReleased
  deriving DecidableEq, Repr

/-- Which access order D0 does not give (60_exceptions.md R221). -/
inductive UnspecifiedOrderReason where
  /-- PUSH with SP as its operand or pointer (40_load.md R121). -/
  | pushOfSp
  /-- POP with SP as its operand or pointer (40_load.md R120). -/
  | popOfSp
  /-- CALL IRR with the pair in the stack bytes, or the pair D8H (43_program_control.md R171). -/
  | callPair
  /-- LDCD, LDED, LDCI, LDEI with the destination inside its pair (40_load.md R116 to R119). -/
  | pairDestination
  deriving DecidableEq, Repr

/-- The model faults of 60_exceptions.md R221: "the step has no successor state". -/
inductive Fault where
  /-- Raised by the fetch: the first byte is one of the 58 values with no instruction (30_encoding.md R90). Safe: the
  hardware may go on, the model claims nothing. -/
  | undefinedOpcode (pc : Word) (b1 : Byte)
  /-- Raised by JP IRR and CALL IRR: the pair address is odd (10_state.md R23). Safe. -/
  | oddPair (a : RegAddr)
  /-- Raised by a fetch, an access of the LDC/LDE family or a vector fetch outside the memory (20_memory.md R56). Safe. -/
  | addressOutOfRange (space : Space) (a : Int)
  /-- Raised by an LDC store while PROG_MEM_WRITABLE is false (20_memory.md R57). Safe. -/
  | unsupportedStore (a : Int)
  /-- Raised by any read or write of a register in PERIPH_REGS or UNIMPL_REGS (10_state.md R33). Safe. -/
  | unmodelledRegister (a : RegAddr)
  /-- Raised by a flag-writing instruction on FLAGS and by a release of Idle or Stop mode with SYM.2 = 0
  (10_state.md R30, 60_exceptions.md R236, R237). Safe. -/
  | unpredictable (reason : UnpredictableReason)
  /-- Raised where an instruction's own write overlaps an operand it reads and D0 gives no order (70_reset_and_hazards.md
  R258). Safe. -/
  | unspecifiedOrder (reason : UnspecifiedOrderReason)
  deriving DecidableEq, Repr

/-- Why an instruction has no meaning in the model. -/
inductive Refusal where
  /-- Raised by an arm of exec whose instruction is not modelled; no arm raises it. Safe. -/
  | notModelled (mnemonic : String)
  deriving DecidableEq, Repr

/-- The state of the machine. -/
structure State where
  /-- The storage of the register file (10_state.md R20, R33 case 5). The places of FLAGS, SP, SYM and of refused
  registers are not used. -/
  regs : Vector Byte 256
  /-- The program counter (R24). -/
  pc : Word
  /-- C, Z, S, V of FLAGS, register D5H (R26). -/
  flags : Flags
  /-- The stack pointer, register D9H (R31). -/
  sp : Byte
  /-- The system mode register, register SYM_ADDR (R34). -/
  sym : Byte
  /-- RUN, IDLE or STOP (R41). -/
  mode : RunMode
  /-- Program memory (R38). -/
  progMem : Memory
  /-- External data memory: a cell is fitted at an address when it is listed (R39). -/
  dataMem : Memory
  /-- The parameters of 00_scope.md R6 (log 1). -/
  cfg : Params
  /-- The model's own: what the platform answers at the next boundaries, oldest first; no entry is no event (log 13). -/
  inputs : List BoundaryInput
  /-- The model's own: how many free values have been drawn (log 8, log 23). -/
  draws : Nat
  deriving DecidableEq, Repr

/-- The state after reset (70_reset_and_hazards.md R250, 10_state.md R42) at the default parameters: run mode RUN, pc at
RESET_PC, SYM.2 = 0. The spec gives no other register a value; the values here are those of log 14. -/
def State.reset : State where
  regs := Vector.replicate 256 resetRegister
  pc := defaultParams.resetPc
  flags := ⟨false, false, false, false⟩
  sp := resetSp
  sym := resetSym
  mode := .run
  progMem := ⟨[]⟩
  dataMem := ⟨[]⟩
  cfg := defaultParams
  inputs := []
  draws := 0

end Sys2Proof.Machine
end

