-- ==== Sys2Proof/Machine/Flags.lean ====
section
/-! DEFINITION. The FLAGS byte (10_state.md R26, R28), every result and flag computation the spec gives (41_arithmetic.md
R141, R145, R146; 42_logic.md R160; 44_bit_manipulation.md R185, R186; 45_rotate_shift.md R190 to R195) and the condition
codes (30_encoding.md R86). A computation takes the flags before the instruction and answers the result and the flags
after it. -/

namespace Sys2Proof.Machine

/-- C, Z, S, V as bits 7..4 of the FLAGS byte (R26). -/
def Flags.nibble (f : Flags) : BitVec 4 :=
  BitVec.ofBool f.c ++ BitVec.ofBool f.z ++ BitVec.ofBool f.s ++ BitVec.ofBool f.v

/-- The flags a byte written to FLAGS sets: bits 7..4; bits 3..0 are discarded (R28). -/
def Flags.ofByte (b : Byte) : Flags := ⟨b.getLsbD 7, b.getLsbD 6, b.getLsbD 5, b.getLsbD 4⟩

/-- add8 of R141. -/
def add8 (a b : Byte) (cin : Bool) : Byte × Flags :=
  let t := a.toNat + b.toNat + cin.toNat
  let res := BitVec.ofNat 8 t
  (res, ⟨decide (t > 255), decide (res = 0), res.msb, a.msb == b.msb && res.msb != a.msb⟩)

/-- sub8 of R141; C is the borrow. -/
def sub8 (a b : Byte) (bin : Bool) : Byte × Flags :=
  let t : Int := (a.toNat : Int) - (b.toNat : Int) - (bin.toNat : Int)
  let res := BitVec.ofInt 8 t
  (res, ⟨decide (t < 0), decide (res = 0), res.msb, a.msb != b.msb && res.msb == b.msb⟩)

/-- logic_flags of R160: C unaffected, Z and S from the result, V cleared. -/
def logicFlags (f : Flags) (res : Byte) : Flags := ⟨f.c, decide (res = 0), res.msb, false⟩

/-- rot_flags of R190: C is the bit that left the byte, V says that the sign changed. -/
def rotFlags (old res : Byte) (out : Bool) : Flags := ⟨out, decide (res = 0), res.msb, res.msb != old.msb⟩

/-- ADD (R143): dst + src. -/
def aluAdd (_ : Flags) (a b : Byte) : Byte × Flags := add8 a b false

/-- ADC (R142): dst + src + C. -/
def aluAdc (f : Flags) (a b : Byte) : Byte × Flags := add8 a b f.c

/-- SUB (R148): dst - src. -/
def aluSub (_ : Flags) (a b : Byte) : Byte × Flags := sub8 a b false

/-- SBC (R147): dst - src - C. -/
def aluSbc (f : Flags) (a b : Byte) : Byte × Flags := sub8 a b f.c

/-- CP (R144): the flags of dst - src; the result is discarded by the instruction. -/
def aluCp (_ : Flags) (a b : Byte) : Byte × Flags := sub8 a b false

/-- AND (R161). -/
def aluAnd (f : Flags) (a b : Byte) : Byte × Flags := (a &&& b, logicFlags f (a &&& b))

/-- OR (R163). -/
def aluOr (f : Flags) (a b : Byte) : Byte × Flags := (a ||| b, logicFlags f (a ||| b))

/-- XOR (R164). -/
def aluXor (f : Flags) (a b : Byte) : Byte × Flags := (a ^^^ b, logicFlags f (a ^^^ b))

/-- TCM (R185): the flags of (NOT dst) AND src. -/
def aluTcm (f : Flags) (a b : Byte) : Byte × Flags := (~~~a &&& b, logicFlags f (~~~a &&& b))

/-- TM (R186): the flags of dst AND src. -/
def aluTm (f : Flags) (a b : Byte) : Byte × Flags := (a &&& b, logicFlags f (a &&& b))

/-- COM (R162): NOT dst. -/
def aluCom (f : Flags) (a : Byte) : Byte × Flags := (~~~a, logicFlags f (~~~a))

/-- INC (R146): dst + 1; C unaffected, V when +127 becomes -128. -/
def aluInc (f : Flags) (a : Byte) : Byte × Flags :=
  let res := a + 1
  (res, ⟨f.c, decide (res = 0), res.msb, decide (a = 0x7F#8)⟩)

/-- DEC (R145): dst - 1; C unaffected, V when -128 becomes +127. -/
def aluDec (f : Flags) (a : Byte) : Byte × Flags :=
  let res := a - 1
  (res, ⟨f.c, decide (res = 0), res.msb, decide (a = 0x80#8)⟩)

/-- RL (R191): bits 6..0 move up, bit 7 goes to bit 0 and to C. -/
def aluRl (_ : Flags) (a : Byte) : Byte × Flags :=
  let res : Byte := a.extractLsb' 0 7 ++ BitVec.ofBool (a.getLsbD 7)
  (res, rotFlags a res (a.getLsbD 7))

/-- RLC (R192): bits 6..0 move up, C goes to bit 0, bit 7 to C. -/
def aluRlc (f : Flags) (a : Byte) : Byte × Flags :=
  let res : Byte := a.extractLsb' 0 7 ++ BitVec.ofBool f.c
  (res, rotFlags a res (a.getLsbD 7))

/-- RR (R193): bits 7..1 move down, bit 0 goes to bit 7 and to C. -/
def aluRr (_ : Flags) (a : Byte) : Byte × Flags :=
  let res : Byte := BitVec.ofBool (a.getLsbD 0) ++ a.extractLsb' 1 7
  (res, rotFlags a res (a.getLsbD 0))

/-- RRC (R194): bits 7..1 move down, C goes to bit 7, bit 0 to C. -/
def aluRrc (f : Flags) (a : Byte) : Byte × Flags :=
  let res : Byte := BitVec.ofBool f.c ++ a.extractLsb' 1 7
  (res, rotFlags a res (a.getLsbD 0))

/-- SRA (R195): bits 7..1 move down, bit 7 stays; bit 0 goes to C, V is cleared. -/
def aluSra (_ : Flags) (a : Byte) : Byte × Flags :=
  let res : Byte := BitVec.ofBool (a.getLsbD 7) ++ a.extractLsb' 1 7
  (res, ⟨a.getLsbD 0, decide (res = 0), res.msb, false⟩)

/-- cond(cc) of R86: the truth of a condition on the flags. -/
def Flags.holds (f : Flags) : Cond → Bool
  | .f => false
  | .t => true
  | .c => f.c
  | .nc => !f.c
  | .z => f.z
  | .nz => !f.z
  | .pl => !f.s
  | .mi => f.s
  | .ov => f.v
  | .nov => !f.v
  | .ge => !(f.s ^^ f.v)
  | .lt => f.s ^^ f.v
  | .gt => !(f.z || (f.s ^^ f.v))
  | .le => f.z || (f.s ^^ f.v)
  | .ugt => !f.c && !f.z
  | .ule => f.c || f.z

end Sys2Proof.Machine
end

