-- ==== Sys2Proof/Machine/Ops.lean ====
section
/-! DEFINITION. The named operations over registers, pairs, stack and memories, the primitives of 00_scope.md R10; taking
an interrupt (60_exceptions.md R228) and returning from one (43_program_control.md R172); and reset (70_reset_and_hazards.md
R250). An operation that can raise a model fault answers Except Fault. -/

namespace Sys2Proof.Machine

/-- The outcome of a step from the result of an operation. -/
def toOutcome : Except Fault State → Host.Outcome State Fault Refusal
  | .ok s => .next s
  | .error f => .fault f

/-- The address lies in one of the ranges. -/
def inRanges (ranges : List AddrRange) (a : RegAddr) : Bool :=
  ranges.any fun r => decide (r.first ≤ a) && decide (a ≤ r.last)

/-- R33 case 4: the address is none of FLAGS, SP and SYM, and in PERIPH_REGS or UNIMPL_REGS. -/
def State.refuses (s : State) (a : RegAddr) : Bool :=
  a != Config.flagsAddr && a != Config.spAddr && a != s.cfg.symAddr
    && (inRanges s.cfg.periph a || inRanges s.cfg.unimpl a)

/-- The byte a read of register-file address a gives where R33 does not refuse it: FLAGS with a free low nibble, SP,
SYM, or plain storage. -/
def State.get (s : State) (a : RegAddr) : Byte :=
  if a = Config.flagsAddr then s.flags.nibble ++ Config.flagsLowRead s.draws
  else if a = Config.spAddr then s.sp
  else if a = s.cfg.symAddr then s.sym
  else s.regs[a.toNat]'a.isLt

/-- The state after a read: a read of FLAGS uses up one free value ("a draw at each read", R28). -/
def State.afterRead (s : State) (a : RegAddr) : State :=
  if a = Config.flagsAddr then { s with draws := s.draws + 1 } else s

/-- The state after a write of v to address a, where R33 does not refuse it. -/
def State.put (s : State) (a : RegAddr) (v : Byte) : State :=
  if a = Config.flagsAddr then { s with flags := Flags.ofByte v }
  else if a = Config.spAddr then { s with sp := v }
  else if a = s.cfg.symAddr then { s with sym := v }
  else { s with regs := s.regs.set a.toNat v a.isLt }

/-- x[a], the read of a register-file address (R10, R33). -/
def readReg (a : RegAddr) (s : State) : Except Fault (Byte × State) :=
  if s.refuses a then .error (.unmodelledRegister a) else .ok (s.get a, s.afterRead a)

/-- x[a] <- v, the write of a register-file address (R10, R33). -/
def writeReg (a : RegAddr) (v : Byte) (s : State) : Except Fault State :=
  if s.refuses a then .error (.unmodelledRegister a) else .ok (s.put a v)

/-- The register-file address of working register n: WR_BASE + n (R22, R72). -/
def State.wreg (s : State) (n : WReg) : RegAddr := s.cfg.wrBase + n.setWidth 8

/-- The register-file address of working register pair p, its even register: WR_BASE + 2p (R76). -/
def State.wpair (s : State) (p : PairNo) : RegAddr := s.wreg (p ++ 0#1)

/-- xx[a]: the pair at a, high byte first (R10, R23). -/
def readPair (a : RegAddr) (s : State) : Except Fault (Word × State) := do
  let (hi, s) ← readReg a s
  let (lo, s) ← readReg (a + 1) s
  return (ofBytes hi lo, s)

/-- xx[a] <- w (R10). -/
def writePair (a : RegAddr) (w : Word) (s : State) : Except Fault State := do
  let s ← writeReg a (hiByte w) s
  writeReg (a + 1) (loByte w) s

/-- push(v): SP <- SP - 1 (mod 256); x[SP] <- v (R10, R32). -/
def push (v : Byte) (s : State) : Except Fault State :=
  writeReg (s.sp - 1) v { s with sp := s.sp - 1 }

/-- pop(): t <- x[SP]; SP <- SP + 1 (mod 256); return t (R10, R32). -/
def pop (s : State) : Except Fault (Byte × State) := do
  let (t, s) ← readReg s.sp s
  return (t, { s with sp := s.sp + 1 })

/-- Push a 16-bit address: PCL first, then PCH (R32, R171). -/
def pushWord (w : Word) (s : State) : Except Fault State := do
  let s ← push (loByte w) s
  push (hiByte w) s

/-- Pop a 16-bit address: PCH first, then PCL (R172, R175). -/
def popWord (s : State) : Except Fault (Word × State) := do
  let (hi, s) ← pop s
  let (lo, s) ← pop s
  return (ofBytes hi lo, s)

/-- MemRead(PM:a, 1) and MemRead(DM:a, 1) (20_memory.md R56, R65). The address is an integer, not truncated. -/
def memRead (space : Space) (a : Int) (s : State) : Except Fault Byte :=
  match space with
  | .program =>
    if 0 ≤ a ∧ a < s.cfg.progSize then .ok (s.progMem.read a.toNat) else .error (.addressOutOfRange .program a)
  | .data =>
    if 0 ≤ a then
      match s.dataMem.find a.toNat with
      | some v => .ok v
      | none => .error (.addressOutOfRange .data a)
    else .error (.addressOutOfRange .data a)

/-- MemWrite(PM:a, 1, v) and MemWrite(DM:a, 1, v) (20_memory.md R56, R57, R65). -/
def memWrite (space : Space) (a : Int) (v : Byte) (s : State) : Except Fault State :=
  match space with
  | .program =>
    if s.cfg.progMemWritable then
      if 0 ≤ a ∧ a < s.cfg.progSize then .ok { s with progMem := s.progMem.write a.toNat v }
      else .error (.addressOutOfRange .program a)
    else .error (.unsupportedStore a)
  | .data =>
    if 0 ≤ a ∧ (s.dataMem.find a.toNat).isSome then .ok { s with dataMem := s.dataMem.store a.toNat v }
    else .error (.addressOutOfRange .data a)

/-- next, the address of the byte after an instruction of n bytes at pc, modulo 65536 (R10, R25). -/
def State.next (s : State) (n : Nat) : Word := s.pc + BitVec.ofNat 16 n

/-- pc <- next, for an instruction of n bytes (R25). -/
def State.advance (s : State) (n : Nat) : State := { s with pc := s.next n }

/-- SYM.2, the global interrupt enable (R34). -/
def State.sym2 (s : State) : Bool := s.sym.getLsbD 2

/-- SYM.2 <- 0: SYM AND FBH (R34, 46_cpu_control.md R201). -/
def State.clearSym2 (s : State) : State := { s with sym := s.sym &&& 0xFB#8 }

/-- SYM.2 <- 1: SYM OR 04H (R34, 46_cpu_control.md R202). -/
def State.setSym2 (s : State) : State := { s with sym := s.sym ||| 0x04#8 }

/-- The interrupt vector: two bytes of program memory, high byte first (60_exceptions.md R229). -/
def readVector (s : State) : Except Fault Word := do
  let hi ← memRead .program s.cfg.irqVector s
  let lo ← memRead .program (s.cfg.irqVector + 1) s
  return ofBytes hi lo

/-- The interrupt entry sequence (60_exceptions.md R228): push PCL, PCH and FLAGS, clear SYM.2, go to the handler. -/
def interruptEntry (s : State) : Except Fault State := do
  let s ← pushWord s.pc s
  let (f, s) ← readReg Config.flagsAddr s
  let s ← push f s
  let target ← readVector s.clearSym2
  return { s.clearSym2 with pc := target }

/-- The return from an interrupt (43_program_control.md R172): pop FLAGS, PCH and PCL, set SYM.2. -/
def interruptReturn (s : State) : Except Fault State := do
  let (f, s) ← pop s
  let s := { s with flags := Flags.ofByte f }
  let (target, s) ← popWord s
  return { s.setSym2 with pc := target }

/-- The reset event (70_reset_and_hazards.md R250): as State.reset at this machine's parameters, with program memory
unchanged, the fitted data memory at free contents, and the platform's later answers still to come. -/
def resetEvent (s : State) : State :=
  { State.reset with
    cfg := s.cfg
    pc := s.cfg.resetPc
    progMem := s.progMem
    dataMem := ⟨s.dataMem.cells.map fun c => (c.1, Config.dataAfterReset s.draws c.1)⟩
    inputs := s.inputs
    draws := s.draws + 1 }

end Sys2Proof.Machine
end

