-- ==== Sys2Proof/Machine/Operands.lean ====
section
/-! DEFINITION. Every operand form of the instruction set (00_scope.md R11, 30_encoding.md R72 to R83): the forms that
name a register-file location, a source value, or an address of program or data memory. -/

namespace Sys2Proof.Machine

/-- An operand that names a location of the register file. -/
inductive Loc where
  /-- r, working register n (R72). -/
  | w (n : WReg)
  /-- Ir, through working register n (R74). -/
  | iw (n : WReg)
  /-- R, register address a (R73). -/
  | r (a : RegAddr)
  /-- IR, through register a (R75). -/
  | ir (a : RegAddr)
  /-- X, offset x indexed by working register n (R78). -/
  | x (off : Byte) (n : WReg)
  deriving DecidableEq, Repr

/-- A source operand: a location, or immediate data (R83). -/
inductive Src where
  | loc (l : Loc)
  | im (v : Byte)
  deriving DecidableEq, Repr

/-- An operand that names an address of program or data memory (40_load.md R112). -/
inductive MemAddr where
  /-- Irr, the value of working register pair p (R76). -/
  | irr (p : PairNo)
  /-- XS, pair p plus a signed 8-bit offset (R79). -/
  | xs (p : PairNo) (off : Byte)
  /-- XL, pair p plus an unsigned 16-bit offset (R80). -/
  | xl (p : PairNo) (off : Word)
  /-- DA, a direct address (R81). -/
  | da (a : Word)
  deriving DecidableEq, Repr

/-- The register-file address an operand names; a pointer or index register is read for it (R72 to R75, R78). -/
def Loc.resolve (l : Loc) (s : State) : Except Fault (RegAddr × State) :=
  match l with
  | .w n => .ok (s.wreg n, s)
  | .iw n => readReg (s.wreg n) s
  | .r a => .ok (a, s)
  | .ir a => readReg a s
  | .x off n => do
    let (i, s) ← readReg (s.wreg n) s
    return (off + i, s)

/-- The value of the location an operand names. -/
def Loc.value (l : Loc) (s : State) : Except Fault (Byte × State) := do
  let (a, s) ← l.resolve s
  readReg a s

/-- The value of a source operand. -/
def Src.value (o : Src) (s : State) : Except Fault (Byte × State) :=
  match o with
  | .loc l => l.value s
  | .im v => .ok (v, s)

/-- The effective address ea of a memory operand, an integer (40_load.md R112). -/
def MemAddr.ea (m : MemAddr) (s : State) : Except Fault (Int × State) :=
  match m with
  | .irr p => do
    let (w, s) ← readPair (s.wpair p) s
    return ((w.toNat : Int), s)
  | .xs p off => do
    let (w, s) ← readPair (s.wpair p) s
    return ((w.toNat : Int) + off.toInt, s)
  | .xl p off => do
    let (w, s) ← readPair (s.wpair p) s
    return ((w.toNat : Int) + (off.toNat : Int), s)
  | .da a => .ok ((a.toNat : Int), s)

/-- The pointer register of an operand that goes through a register named by an 8-bit address (R75). -/
def Loc.pointer : Loc → Option RegAddr
  | .ir a => some a
  | _ => none

/-- The target of a relative jump: next plus the signed displacement, modulo 65536 (R82, 43_program_control.md R174). -/
def relativeTarget (next : Word) (off : Byte) : Word := next + off.signExtend 16

end Sys2Proof.Machine
end

