-- ==== Sys2Proof/Machine/Boundary.lean ====
section
/-! DEFINITION. What happens at an instruction boundary (60_exceptions.md R226, R233, R236, R237, R241) and the fetch of an
instruction (30_encoding.md R92, 20_memory.md R65). -/

namespace Sys2Proof.Machine

/-- IrqPending: some enabled interrupt source has its pending bit set (60_exceptions.md R222). -/
def IrqRequest.pending : IrqRequest → Bool
  | .none => false
  | .onChip => true
  | .external => true

/-- ExtIrqPending: the same, for external sources (R222). -/
def IrqRequest.externalPending : IrqRequest → Bool
  | .none => false
  | .onChip => false
  | .external => true

/-- No reset and no request. -/
def quietInput : BoundaryInput := ⟨false, .none⟩

/-- What the platform answers at this boundary; an empty queue answers no event (log 13). -/
def State.input (s : State) : BoundaryInput := s.inputs.headD quietInput

/-- The state once this boundary's answer is used. -/
def State.dropInput (s : State) : State := { s with inputs := s.inputs.tail }

/-- A request that may release Idle or Stop mode arrives (R236, R237): with SYM.2 = 1 an interrupt entry in run mode RUN,
with SYM.2 = 0 what WAKE_WITH_IRQ_DISABLED says, unpredictable while it is open (92_eei_decisions.md D18). -/
def release (reason : UnpredictableReason) (s : State) : Except Fault State :=
  if s.sym2 then interruptEntry { s with mode := .run }
  else
    match s.cfg.wakeIrqDisabled with
    | none => .error (.unpredictable reason)
    | some .stay => .ok s
    | some .resume => .ok { s with mode := .run }

/-- What a boundary leads to: an outcome of its own, or the execution of an instruction from a state. -/
inductive BoundaryResult where
  | settled (r : Except Fault State)
  | execute (s : State)

/-- The boundary of R241, before any fetch: reset first, then the run mode, then the acceptance of an interrupt (R226). -/
def boundary (s : State) : BoundaryResult :=
  if s.input.reset then .settled (.ok (resetEvent s.dropInput))
  else
    match s.mode with
    | .idle =>
      if s.input.irq.pending then .settled (release .idleReleased s.dropInput) else .settled (.ok s.dropInput)
    | .stop =>
      if s.input.irq.externalPending then .settled (release .stopReleased s.dropInput) else .settled (.ok s.dropInput)
    | .run =>
      if s.sym2 && s.input.irq.pending then .settled (interruptEntry s.dropInput) else .execute s.dropInput

/-- Fetch n bytes of program memory from address a on, without wrap-around (20_memory.md R65). -/
def fetchBytes (s : State) (a : Nat) : Nat → Except Fault (List Byte)
  | 0 => .ok []
  | n + 1 => do
    let b ← memRead .program a s
    let rest ← fetchBytes s (a + 1) n
    return b :: rest

/-- Fetch and decode the instruction at pc (R92): the first byte gives the length, then the remaining bytes are fetched. -/
def fetchInstr (s : State) : Except Fault Instr := do
  let b1 ← memRead .program s.pc.toNat s
  match (opcodeCell b1).length with
  | none => .error (.undefinedOpcode s.pc b1)
  | some n =>
    let rest ← fetchBytes s (s.pc.toNat + 1) (n - 1)
    match decode (b1 :: rest) with
    | .ok (i, _) => .ok i
    | .error _ => .error (.undefinedOpcode s.pc b1)

/-- Store bytes in program memory from address a on, as far as program memory goes. -/
def placeBytes (progSize : Nat) (m : Memory) (a : Nat) : List Byte → Memory
  | [] => m
  | b :: rest => placeBytes progSize (if a < progSize then m.write a b else m) (a + 1) rest

/-- The state with bytes in program memory at pc, running, and with no event at the next boundary (log 21). -/
def State.withBytesAtPc (s : State) (bytes : List Byte) : State :=
  { s with
    progMem := placeBytes s.cfg.progSize s.progMem s.pc.toNat bytes
    mode := .run
    inputs := match s.inputs with
      | [] => []
      | _ :: later => quietInput :: later }

end Sys2Proof.Machine
end

