-- ==== Sys2Proof/Machine/Forms.lean ====
section
/-! DEFINITION. The shared shapes of the instructions: each meaning in the family files is one of these over its operand
forms, its computation and its length n in bytes. All operands are read before anything is written (92_eei_decisions.md
D12, log 11). -/

namespace Sys2Proof.Machine

/-- A two-operand instruction that writes its destination and all the flags its computation gives (41_arithmetic.md R142,
R143, R147, R148; 42_logic.md R161, R163, R164). FLAGS as the destination is unpredictable (10_state.md R30). -/
def aluWrite (f : Flags → Byte → Byte → Byte × Flags) (dst : Loc) (src : Src) (n : Nat) (s : State) :
    Except Fault State := do
  let (d, s) ← dst.resolve s
  if d = Config.flagsAddr then .error (.unpredictable .flagsDestination)
  else
    let (a, s) ← readReg d s
    let (b, s) ← src.value s
    let s' ← writeReg d (f s.flags a b).1 s
    return { s' with flags := (f s.flags a b).2 }.advance n

/-- A two-operand instruction that sets flags and writes no destination: CP, TCM, TM (R144, R185, R186). -/
def aluTest (f : Flags → Byte → Byte → Byte × Flags) (dst : Loc) (src : Src) (n : Nat) (s : State) :
    Except Fault State := do
  let (a, s) ← dst.value s
  let (b, s) ← src.value s
  return { s with flags := (f s.flags a b).2 }.advance n

/-- A one-operand instruction that writes its destination and flags: INC, DEC, COM, the rotates and SRA (R145, R146,
R162, R191 to R195). FLAGS as the destination is unpredictable (R30). -/
def aluUnary (f : Flags → Byte → Byte × Flags) (dst : Loc) (n : Nat) (s : State) : Except Fault State := do
  let (d, s) ← dst.resolve s
  if d = Config.flagsAddr then .error (.unpredictable .flagsDestination)
  else
    let (a, s) ← readReg d s
    let s' ← writeReg d (f s.flags a).1 s
    return { s' with flags := (f s.flags a).2 }.advance n

/-- LD dst,src (40_load.md R111); with the immediate 00H, CLR dst (R110). No flag is set as a side effect. -/
def loadTo (dst : Loc) (src : Src) (n : Nat) (s : State) : Except Fault State := do
  let (d, s) ← dst.resolve s
  let (v, s) ← src.value s
  let s ← writeReg d v s
  return s.advance n

/-- LDC and LDE with a register destination (R113, R115): r[dst] <- MemRead(space:ea, 1). -/
def memLoad (space : Space) (dst : WReg) (m : MemAddr) (n : Nat) (s : State) : Except Fault State := do
  let (ea, s) ← m.ea s
  let v ← memRead space ea s
  let s ← writeReg (s.wreg dst) v s
  return s.advance n

/-- LDC and LDE with a memory destination (R114, R115): MemWrite(space:ea, 1, r[src]). -/
def memStore (space : Space) (m : MemAddr) (src : WReg) (n : Nat) (s : State) : Except Fault State := do
  let (ea, s) ← m.ea s
  let (v, s) ← readReg (s.wreg src) s
  let s ← memWrite space ea v s
  return s.advance n

/-- LDCD, LDED, LDCI, LDEI (R116 to R119): load through a pair, then add delta to the pair modulo 65536. A destination
inside the pair has no order D0 gives. -/
def memLoadStep (space : Space) (delta : Word) (dst : WReg) (p : PairNo) (s : State) : Except Fault State :=
  if pairOfField dst = p then .error (.unspecifiedOrder .pairDestination)
  else do
    let (w, s) ← readPair (s.wpair p) s
    let v ← memRead space w.toNat s
    let s ← writeReg (s.wreg dst) v s
    let s ← writePair (s.wpair p) (w + delta) s
    return s.advance 2

/-- POP dst (R120): dst <- x[SP]; SP <- SP + 1. SP as the destination or as the pointer has no order D0 gives. -/
def popTo (dst : Loc) (s : State) : Except Fault State := do
  let (d, s) ← dst.resolve s
  if d = Config.spAddr ∨ dst.pointer = some Config.spAddr then .error (.unspecifiedOrder .popOfSp)
  else
    let (v, s) ← pop s
    let s ← writeReg d v s
    return s.advance 2

/-- PUSH src (R121): SP <- SP - 1; x[SP] <- src. SP as the source or as the pointer has no order D0 gives. -/
def pushFrom (src : Loc) (s : State) : Except Fault State := do
  let (a, s) ← src.resolve s
  if a = Config.spAddr ∨ src.pointer = some Config.spAddr then .error (.unspecifiedOrder .pushOfSp)
  else
    let (v, s) ← readReg a s
    let s ← push v s
    return s.advance 2

/-- A register-pair operand named by an 8-bit address, JP IRR and CALL IRR: an odd address faults (R77). -/
def pairTarget (a : RegAddr) (s : State) : Except Fault (Word × State) :=
  if a.getLsbD 0 then .error (.oddPair a) else readPair a s

/-- Push next and go to the target: the pushes and the transfer of CALL (43_program_control.md R171). -/
def callTo (target : Word) (n : Nat) (s : State) : Except Fault State := do
  let s' ← pushWord (s.next n) s
  return { s' with pc := target }

/-- The pair a, a + 1 meets the two stack bytes CALL writes, or is the pair D8H whose low byte is SP (R171). -/
def callPairOverlaps (a sp : RegAddr) : Bool :=
  a == sp - 1 || a == sp - 2 || a + 1 == sp - 1 || a + 1 == sp - 2 || a == 0xD8#8

/-- CALL IRR (R171). -/
def callPair (a : RegAddr) (s : State) : Except Fault State := do
  let (target, s) ← pairTarget a s
  if callPairOverlaps a s.sp then .error (.unspecifiedOrder .callPair)
  else callTo target 2 s

/-- JP IRR (R173): pc <- xx[a]. -/
def jumpPair (a : RegAddr) (s : State) : Except Fault State := do
  let (target, s) ← pairTarget a s
  return { s with pc := target }

/-- A conditional jump of n bytes (R173, R174). -/
def jumpIf (cc : Cond) (target : Word) (n : Nat) (s : State) : State :=
  if s.flags.holds cc then { s with pc := target } else s.advance n

/-- RET (R175): pop PCH and PCL. -/
def returnFromCall (s : State) : Except Fault State := do
  let (target, s) ← popWord s
  return { s with pc := target }

end Sys2Proof.Machine
end

