-- ==== Sys2Proof/Machine/Arithmetic.lean ====
section
/-! DEFINITION. The meanings of the arithmetic instructions, 41_arithmetic.md R140 to R149: one definition per row of the opcode table. -/

namespace Sys2Proof.Machine

/-- ADD r,r (R143): dst <- dst + src. -/
def execAddWW (dst src : WReg) (s : State) : Host.Outcome State Fault Refusal :=
  toOutcome (aluWrite aluAdd (.w dst) (.loc (.w src)) 2 s)

/-- ADD r,Ir (R143): dst <- dst + src. -/
def execAddWIw (dst src : WReg) (s : State) : Host.Outcome State Fault Refusal :=
  toOutcome (aluWrite aluAdd (.w dst) (.loc (.iw src)) 2 s)

/-- ADD R,R (R143): dst <- dst + src. -/
def execAddRR (dst src : RegAddr) (s : State) : Host.Outcome State Fault Refusal :=
  toOutcome (aluWrite aluAdd (.r dst) (.loc (.r src)) 3 s)

/-- ADD R,IR (R143): dst <- dst + src. -/
def execAddRIr (dst src : RegAddr) (s : State) : Host.Outcome State Fault Refusal :=
  toOutcome (aluWrite aluAdd (.r dst) (.loc (.ir src)) 3 s)

/-- ADD R,IM (R143): dst <- dst + src. -/
def execAddRIm (dst : RegAddr) (v : Byte) (s : State) : Host.Outcome State Fault Refusal :=
  toOutcome (aluWrite aluAdd (.r dst) (.im v) 3 s)

/-- ADC r,r (R142): dst <- dst + src + C. -/
def execAdcWW (dst src : WReg) (s : State) : Host.Outcome State Fault Refusal :=
  toOutcome (aluWrite aluAdc (.w dst) (.loc (.w src)) 2 s)

/-- ADC r,Ir (R142): dst <- dst + src + C. -/
def execAdcWIw (dst src : WReg) (s : State) : Host.Outcome State Fault Refusal :=
  toOutcome (aluWrite aluAdc (.w dst) (.loc (.iw src)) 2 s)

/-- ADC R,R (R142): dst <- dst + src + C. -/
def execAdcRR (dst src : RegAddr) (s : State) : Host.Outcome State Fault Refusal :=
  toOutcome (aluWrite aluAdc (.r dst) (.loc (.r src)) 3 s)

/-- ADC R,IR (R142): dst <- dst + src + C. -/
def execAdcRIr (dst src : RegAddr) (s : State) : Host.Outcome State Fault Refusal :=
  toOutcome (aluWrite aluAdc (.r dst) (.loc (.ir src)) 3 s)

/-- ADC R,IM (R142): dst <- dst + src + C. -/
def execAdcRIm (dst : RegAddr) (v : Byte) (s : State) : Host.Outcome State Fault Refusal :=
  toOutcome (aluWrite aluAdc (.r dst) (.im v) 3 s)

/-- SUB r,r (R148): dst <- dst - src. -/
def execSubWW (dst src : WReg) (s : State) : Host.Outcome State Fault Refusal :=
  toOutcome (aluWrite aluSub (.w dst) (.loc (.w src)) 2 s)

/-- SUB r,Ir (R148): dst <- dst - src. -/
def execSubWIw (dst src : WReg) (s : State) : Host.Outcome State Fault Refusal :=
  toOutcome (aluWrite aluSub (.w dst) (.loc (.iw src)) 2 s)

/-- SUB R,R (R148): dst <- dst - src. -/
def execSubRR (dst src : RegAddr) (s : State) : Host.Outcome State Fault Refusal :=
  toOutcome (aluWrite aluSub (.r dst) (.loc (.r src)) 3 s)

/-- SUB R,IR (R148): dst <- dst - src. -/
def execSubRIr (dst src : RegAddr) (s : State) : Host.Outcome State Fault Refusal :=
  toOutcome (aluWrite aluSub (.r dst) (.loc (.ir src)) 3 s)

/-- SUB R,IM (R148): dst <- dst - src. -/
def execSubRIm (dst : RegAddr) (v : Byte) (s : State) : Host.Outcome State Fault Refusal :=
  toOutcome (aluWrite aluSub (.r dst) (.im v) 3 s)

/-- SBC r,r (R147): dst <- dst - src - C. -/
def execSbcWW (dst src : WReg) (s : State) : Host.Outcome State Fault Refusal :=
  toOutcome (aluWrite aluSbc (.w dst) (.loc (.w src)) 2 s)

/-- SBC r,Ir (R147): dst <- dst - src - C. -/
def execSbcWIw (dst src : WReg) (s : State) : Host.Outcome State Fault Refusal :=
  toOutcome (aluWrite aluSbc (.w dst) (.loc (.iw src)) 2 s)

/-- SBC R,R (R147): dst <- dst - src - C. -/
def execSbcRR (dst src : RegAddr) (s : State) : Host.Outcome State Fault Refusal :=
  toOutcome (aluWrite aluSbc (.r dst) (.loc (.r src)) 3 s)

/-- SBC R,IR (R147): dst <- dst - src - C. -/
def execSbcRIr (dst src : RegAddr) (s : State) : Host.Outcome State Fault Refusal :=
  toOutcome (aluWrite aluSbc (.r dst) (.loc (.ir src)) 3 s)

/-- SBC R,IM (R147): dst <- dst - src - C. -/
def execSbcRIm (dst : RegAddr) (v : Byte) (s : State) : Host.Outcome State Fault Refusal :=
  toOutcome (aluWrite aluSbc (.r dst) (.im v) 3 s)

/-- CP r,r (R144): the flags of dst - src. -/
def execCpWW (dst src : WReg) (s : State) : Host.Outcome State Fault Refusal :=
  toOutcome (aluTest aluCp (.w dst) (.loc (.w src)) 2 s)

/-- CP r,Ir (R144): the flags of dst - src. -/
def execCpWIw (dst src : WReg) (s : State) : Host.Outcome State Fault Refusal :=
  toOutcome (aluTest aluCp (.w dst) (.loc (.iw src)) 2 s)

/-- CP R,R (R144): the flags of dst - src. -/
def execCpRR (dst src : RegAddr) (s : State) : Host.Outcome State Fault Refusal :=
  toOutcome (aluTest aluCp (.r dst) (.loc (.r src)) 3 s)

/-- CP R,IR (R144): the flags of dst - src. -/
def execCpRIr (dst src : RegAddr) (s : State) : Host.Outcome State Fault Refusal :=
  toOutcome (aluTest aluCp (.r dst) (.loc (.ir src)) 3 s)

/-- CP R,IM (R144): the flags of dst - src. -/
def execCpRIm (dst : RegAddr) (v : Byte) (s : State) : Host.Outcome State Fault Refusal :=
  toOutcome (aluTest aluCp (.r dst) (.im v) 3 s)

/-- DEC R (R145): dst <- dst - 1. -/
def execDecR (dst : RegAddr) (s : State) : Host.Outcome State Fault Refusal :=
  toOutcome (aluUnary aluDec (.r dst) 2 s)

/-- DEC IR (R145): dst <- dst - 1. -/
def execDecIr (dst : RegAddr) (s : State) : Host.Outcome State Fault Refusal :=
  toOutcome (aluUnary aluDec (.ir dst) 2 s)

/-- INC R (R146): dst <- dst + 1. -/
def execIncR (dst : RegAddr) (s : State) : Host.Outcome State Fault Refusal :=
  toOutcome (aluUnary aluInc (.r dst) 2 s)

/-- INC IR (R146): dst <- dst + 1. -/
def execIncIr (dst : RegAddr) (s : State) : Host.Outcome State Fault Refusal :=
  toOutcome (aluUnary aluInc (.ir dst) 2 s)

/-- INC r (R146): dst <- dst + 1. -/
def execIncW (dst : WReg) (s : State) : Host.Outcome State Fault Refusal := toOutcome (aluUnary aluInc (.w dst) 1 s)

end Sys2Proof.Machine
end

