-- ==== Sys2Proof/Machine/BitManipulation.lean ====
section
/-! DEFINITION. The meanings of the bit manipulation instructions, 44_bit_manipulation.md R185 and R186: one definition per row of the opcode table. -/

namespace Sys2Proof.Machine

/-- TCM r,r (R185): the flags of (NOT dst) AND src. -/
def execTcmWW (dst src : WReg) (s : State) : Host.Outcome State Fault Refusal :=
  toOutcome (aluTest aluTcm (.w dst) (.loc (.w src)) 2 s)

/-- TCM r,Ir (R185): the flags of (NOT dst) AND src. -/
def execTcmWIw (dst src : WReg) (s : State) : Host.Outcome State Fault Refusal :=
  toOutcome (aluTest aluTcm (.w dst) (.loc (.iw src)) 2 s)

/-- TCM R,R (R185): the flags of (NOT dst) AND src. -/
def execTcmRR (dst src : RegAddr) (s : State) : Host.Outcome State Fault Refusal :=
  toOutcome (aluTest aluTcm (.r dst) (.loc (.r src)) 3 s)

/-- TCM R,IR (R185): the flags of (NOT dst) AND src. -/
def execTcmRIr (dst src : RegAddr) (s : State) : Host.Outcome State Fault Refusal :=
  toOutcome (aluTest aluTcm (.r dst) (.loc (.ir src)) 3 s)

/-- TCM R,IM (R185): the flags of (NOT dst) AND src. -/
def execTcmRIm (dst : RegAddr) (v : Byte) (s : State) : Host.Outcome State Fault Refusal :=
  toOutcome (aluTest aluTcm (.r dst) (.im v) 3 s)

/-- TM r,r (R186): the flags of dst AND src. -/
def execTmWW (dst src : WReg) (s : State) : Host.Outcome State Fault Refusal :=
  toOutcome (aluTest aluTm (.w dst) (.loc (.w src)) 2 s)

/-- TM r,Ir (R186): the flags of dst AND src. -/
def execTmWIw (dst src : WReg) (s : State) : Host.Outcome State Fault Refusal :=
  toOutcome (aluTest aluTm (.w dst) (.loc (.iw src)) 2 s)

/-- TM R,R (R186): the flags of dst AND src. -/
def execTmRR (dst src : RegAddr) (s : State) : Host.Outcome State Fault Refusal :=
  toOutcome (aluTest aluTm (.r dst) (.loc (.r src)) 3 s)

/-- TM R,IR (R186): the flags of dst AND src. -/
def execTmRIr (dst src : RegAddr) (s : State) : Host.Outcome State Fault Refusal :=
  toOutcome (aluTest aluTm (.r dst) (.loc (.ir src)) 3 s)

/-- TM R,IM (R186): the flags of dst AND src. -/
def execTmRIm (dst : RegAddr) (v : Byte) (s : State) : Host.Outcome State Fault Refusal :=
  toOutcome (aluTest aluTm (.r dst) (.im v) 3 s)

end Sys2Proof.Machine
end

