-- ==== Sys2Proof/Machine/CpuControl.lean ====
section
/-! DEFINITION. The meanings of the CPU control instructions, 46_cpu_control.md R200 to R207: one definition per row of the opcode table. -/

namespace Sys2Proof.Machine

/-- IDLE (R203): run mode <- IDLE. -/
def execIdle (s : State) : Host.Outcome State Fault Refusal := .next { s.advance 1 with mode := .idle }

/-- STOP (R207): run mode <- STOP. -/
def execStop (s : State) : Host.Outcome State Fault Refusal := .next { s.advance 1 with mode := .stop }

/-- DI (R201): SYM.2 <- 0. -/
def execDi (s : State) : Host.Outcome State Fault Refusal := .next (s.clearSym2.advance 1)

/-- EI (R202): SYM.2 <- 1. -/
def execEi (s : State) : Host.Outcome State Fault Refusal := .next (s.setSym2.advance 1)

/-- RCF (R205): C <- 0. -/
def execRcf (s : State) : Host.Outcome State Fault Refusal := .next ({ s with flags.c := false }.advance 1)

/-- SCF (R206): C <- 1. -/
def execScf (s : State) : Host.Outcome State Fault Refusal := .next ({ s with flags.c := true }.advance 1)

/-- CCF (R200): C <- NOT C. -/
def execCcf (s : State) : Host.Outcome State Fault Refusal := .next ({ s with flags.c := !s.flags.c }.advance 1)

/-- NOP (R204): nothing but pc <- next. -/
def execNop (s : State) : Host.Outcome State Fault Refusal := .next (s.advance 1)

end Sys2Proof.Machine
end

