-- ==== Sys2Proof/Machine/Load.lean ====
section
/-! DEFINITION. The meanings of the load instructions, 40_load.md R110 to R121: one definition per row of the opcode table. -/

namespace Sys2Proof.Machine

/-- POP R (R120): dst <- x[SP]; SP <- SP + 1. -/
def execPopR (dst : RegAddr) (s : State) : Host.Outcome State Fault Refusal := toOutcome (popTo (.r dst) s)

/-- POP IR (R120): dst <- x[SP]; SP <- SP + 1. -/
def execPopIr (dst : RegAddr) (s : State) : Host.Outcome State Fault Refusal := toOutcome (popTo (.ir dst) s)

/-- PUSH R (R121): SP <- SP - 1; x[SP] <- src. -/
def execPushR (src : RegAddr) (s : State) : Host.Outcome State Fault Refusal := toOutcome (pushFrom (.r src) s)

/-- PUSH IR (R121): SP <- SP - 1; x[SP] <- src. -/
def execPushIr (src : RegAddr) (s : State) : Host.Outcome State Fault Refusal := toOutcome (pushFrom (.ir src) s)

/-- CLR R (R110): dst <- 00H. -/
def execClrR (dst : RegAddr) (s : State) : Host.Outcome State Fault Refusal :=
  toOutcome (loadTo (.r dst) (.im 0x00#8) 2 s)

/-- CLR IR (R110): dst <- 00H. -/
def execClrIr (dst : RegAddr) (s : State) : Host.Outcome State Fault Refusal :=
  toOutcome (loadTo (.ir dst) (.im 0x00#8) 2 s)

/-- LD r,IM (R111): dst <- src. -/
def execLdWIm (dst : WReg) (v : Byte) (s : State) : Host.Outcome State Fault Refusal :=
  toOutcome (loadTo (.w dst) (.im v) 2 s)

/-- LD r,R (R111): dst <- src. -/
def execLdWR (dst : WReg) (src : RegAddr) (s : State) : Host.Outcome State Fault Refusal :=
  toOutcome (loadTo (.w dst) (.loc (.r src)) 2 s)

/-- LD R,r (R111): dst <- src. -/
def execLdRW (dst : RegAddr) (src : WReg) (s : State) : Host.Outcome State Fault Refusal :=
  toOutcome (loadTo (.r dst) (.loc (.w src)) 2 s)

/-- LD r,Ir (R111): dst <- src. -/
def execLdWIw (dst src : WReg) (s : State) : Host.Outcome State Fault Refusal :=
  toOutcome (loadTo (.w dst) (.loc (.iw src)) 2 s)

/-- LD Ir,r (R111): dst <- src. -/
def execLdIwW (dst src : WReg) (s : State) : Host.Outcome State Fault Refusal :=
  toOutcome (loadTo (.iw dst) (.loc (.w src)) 2 s)

/-- LD R,R (R111): dst <- src. -/
def execLdRR (dst src : RegAddr) (s : State) : Host.Outcome State Fault Refusal :=
  toOutcome (loadTo (.r dst) (.loc (.r src)) 3 s)

/-- LD R,IR (R111): dst <- src. -/
def execLdRIr (dst src : RegAddr) (s : State) : Host.Outcome State Fault Refusal :=
  toOutcome (loadTo (.r dst) (.loc (.ir src)) 3 s)

/-- LD R,IM (R111): dst <- src. -/
def execLdRIm (dst : RegAddr) (v : Byte) (s : State) : Host.Outcome State Fault Refusal :=
  toOutcome (loadTo (.r dst) (.im v) 3 s)

/-- LD IR,IM (R111): dst <- src. -/
def execLdIrIm (dst : RegAddr) (v : Byte) (s : State) : Host.Outcome State Fault Refusal :=
  toOutcome (loadTo (.ir dst) (.im v) 3 s)

/-- LD IR,R (R111): dst <- src. -/
def execLdIrR (dst src : RegAddr) (s : State) : Host.Outcome State Fault Refusal :=
  toOutcome (loadTo (.ir dst) (.loc (.r src)) 3 s)

/-- LD r,X[r] (R111): dst <- src. -/
def execLdWX (dst : WReg) (x : Byte) (n : WReg) (s : State) : Host.Outcome State Fault Refusal :=
  toOutcome (loadTo (.w dst) (.loc (.x x n)) 3 s)

/-- LD X[r],r (R111): dst <- src. -/
def execLdXW (x : Byte) (n src : WReg) (s : State) : Host.Outcome State Fault Refusal :=
  toOutcome (loadTo (.x x n) (.loc (.w src)) 3 s)

/-- LDC r,Irr (R113): program memory. -/
def execLdcWIpw (dst : WReg) (p : PairNo) (s : State) : Host.Outcome State Fault Refusal :=
  toOutcome (memLoad .program dst (.irr p) 2 s)

/-- LDC Irr,r (R114): program memory. -/
def execLdcIpwW (p : PairNo) (src : WReg) (s : State) : Host.Outcome State Fault Refusal :=
  toOutcome (memStore .program (.irr p) src 2 s)

/-- LDC r,XS[rr] (R113): program memory. -/
def execLdcWXs (dst : WReg) (p : PairNo) (x : Byte) (s : State) : Host.Outcome State Fault Refusal :=
  toOutcome (memLoad .program dst (.xs p x) 3 s)

/-- LDC XS[rr],r (R114): program memory. -/
def execLdcXsW (p : PairNo) (x : Byte) (src : WReg) (s : State) : Host.Outcome State Fault Refusal :=
  toOutcome (memStore .program (.xs p x) src 3 s)

/-- LDC r,XL[rr] (R113): program memory. -/
def execLdcWXl (dst : WReg) (p : PairNo) (w : Word) (s : State) : Host.Outcome State Fault Refusal :=
  toOutcome (memLoad .program dst (.xl p w) 4 s)

/-- LDC XL[rr],r (R114): program memory. -/
def execLdcXlW (p : PairNo) (w : Word) (src : WReg) (s : State) : Host.Outcome State Fault Refusal :=
  toOutcome (memStore .program (.xl p w) src 4 s)

/-- LDC r,DA (R113): program memory. -/
def execLdcWDa (dst : WReg) (w : Word) (s : State) : Host.Outcome State Fault Refusal :=
  toOutcome (memLoad .program dst (.da w) 4 s)

/-- LDC DA,r (R114): program memory. -/
def execLdcDaW (w : Word) (src : WReg) (s : State) : Host.Outcome State Fault Refusal :=
  toOutcome (memStore .program (.da w) src 4 s)

/-- LDE r,Irr (R115): external data memory. -/
def execLdeWIpw (dst : WReg) (p : PairNo) (s : State) : Host.Outcome State Fault Refusal :=
  toOutcome (memLoad .data dst (.irr p) 2 s)

/-- LDE Irr,r (R115): external data memory. -/
def execLdeIpwW (p : PairNo) (src : WReg) (s : State) : Host.Outcome State Fault Refusal :=
  toOutcome (memStore .data (.irr p) src 2 s)

/-- LDE r,XS[rr] (R115): external data memory. -/
def execLdeWXs (dst : WReg) (p : PairNo) (x : Byte) (s : State) : Host.Outcome State Fault Refusal :=
  toOutcome (memLoad .data dst (.xs p x) 3 s)

/-- LDE XS[rr],r (R115): external data memory. -/
def execLdeXsW (p : PairNo) (x : Byte) (src : WReg) (s : State) : Host.Outcome State Fault Refusal :=
  toOutcome (memStore .data (.xs p x) src 3 s)

/-- LDE r,XL[rr] (R115): external data memory. -/
def execLdeWXl (dst : WReg) (p : PairNo) (w : Word) (s : State) : Host.Outcome State Fault Refusal :=
  toOutcome (memLoad .data dst (.xl p w) 4 s)

/-- LDE XL[rr],r (R115): external data memory. -/
def execLdeXlW (p : PairNo) (w : Word) (src : WReg) (s : State) : Host.Outcome State Fault Refusal :=
  toOutcome (memStore .data (.xl p w) src 4 s)

/-- LDE r,DA (R115): external data memory. -/
def execLdeWDa (dst : WReg) (w : Word) (s : State) : Host.Outcome State Fault Refusal :=
  toOutcome (memLoad .data dst (.da w) 4 s)

/-- LDE DA,r (R115): external data memory. -/
def execLdeDaW (w : Word) (src : WReg) (s : State) : Host.Outcome State Fault Refusal :=
  toOutcome (memStore .data (.da w) src 4 s)

/-- LDCD r,Irr (R116): load from program memory, decrement the pair. -/
def execLdcd (dst : WReg) (p : PairNo) (s : State) : Host.Outcome State Fault Refusal :=
  toOutcome (memLoadStep .program 0xFFFF#16 dst p s)

/-- LDED r,Irr (R117): load from external data memory, decrement the pair. -/
def execLded (dst : WReg) (p : PairNo) (s : State) : Host.Outcome State Fault Refusal :=
  toOutcome (memLoadStep .data 0xFFFF#16 dst p s)

/-- LDCI r,Irr (R118): load from program memory, increment the pair. -/
def execLdci (dst : WReg) (p : PairNo) (s : State) : Host.Outcome State Fault Refusal :=
  toOutcome (memLoadStep .program 0x0001#16 dst p s)

/-- LDEI r,Irr (R119): load from external data memory, increment the pair. -/
def execLdei (dst : WReg) (p : PairNo) (s : State) : Host.Outcome State Fault Refusal :=
  toOutcome (memLoadStep .data 0x0001#16 dst p s)

end Sys2Proof.Machine
end

