-- ==== Sys2Proof/Machine/Logic.lean ====
section
/-! DEFINITION. The meanings of the logic instructions, 42_logic.md R160 to R164: one definition per row of the opcode table. -/

namespace Sys2Proof.Machine

/-- OR r,r (R163): dst <- dst OR src. -/
def execOrWW (dst src : WReg) (s : State) : Host.Outcome State Fault Refusal :=
  toOutcome (aluWrite aluOr (.w dst) (.loc (.w src)) 2 s)

/-- OR r,Ir (R163): dst <- dst OR src. -/
def execOrWIw (dst src : WReg) (s : State) : Host.Outcome State Fault Refusal :=
  toOutcome (aluWrite aluOr (.w dst) (.loc (.iw src)) 2 s)

/-- OR R,R (R163): dst <- dst OR src. -/
def execOrRR (dst src : RegAddr) (s : State) : Host.Outcome State Fault Refusal :=
  toOutcome (aluWrite aluOr (.r dst) (.loc (.r src)) 3 s)

/-- OR R,IR (R163): dst <- dst OR src. -/
def execOrRIr (dst src : RegAddr) (s : State) : Host.Outcome State Fault Refusal :=
  toOutcome (aluWrite aluOr (.r dst) (.loc (.ir src)) 3 s)

/-- OR R,IM (R163): dst <- dst OR src. -/
def execOrRIm (dst : RegAddr) (v : Byte) (s : State) : Host.Outcome State Fault Refusal :=
  toOutcome (aluWrite aluOr (.r dst) (.im v) 3 s)

/-- AND r,r (R161): dst <- dst AND src. -/
def execAndWW (dst src : WReg) (s : State) : Host.Outcome State Fault Refusal :=
  toOutcome (aluWrite aluAnd (.w dst) (.loc (.w src)) 2 s)

/-- AND r,Ir (R161): dst <- dst AND src. -/
def execAndWIw (dst src : WReg) (s : State) : Host.Outcome State Fault Refusal :=
  toOutcome (aluWrite aluAnd (.w dst) (.loc (.iw src)) 2 s)

/-- AND R,R (R161): dst <- dst AND src. -/
def execAndRR (dst src : RegAddr) (s : State) : Host.Outcome State Fault Refusal :=
  toOutcome (aluWrite aluAnd (.r dst) (.loc (.r src)) 3 s)

/-- AND R,IR (R161): dst <- dst AND src. -/
def execAndRIr (dst src : RegAddr) (s : State) : Host.Outcome State Fault Refusal :=
  toOutcome (aluWrite aluAnd (.r dst) (.loc (.ir src)) 3 s)

/-- AND R,IM (R161): dst <- dst AND src. -/
def execAndRIm (dst : RegAddr) (v : Byte) (s : State) : Host.Outcome State Fault Refusal :=
  toOutcome (aluWrite aluAnd (.r dst) (.im v) 3 s)

/-- XOR r,r (R164): dst <- dst XOR src. -/
def execXorWW (dst src : WReg) (s : State) : Host.Outcome State Fault Refusal :=
  toOutcome (aluWrite aluXor (.w dst) (.loc (.w src)) 2 s)

/-- XOR r,Ir (R164): dst <- dst XOR src. -/
def execXorWIw (dst src : WReg) (s : State) : Host.Outcome State Fault Refusal :=
  toOutcome (aluWrite aluXor (.w dst) (.loc (.iw src)) 2 s)

/-- XOR R,R (R164): dst <- dst XOR src. -/
def execXorRR (dst src : RegAddr) (s : State) : Host.Outcome State Fault Refusal :=
  toOutcome (aluWrite aluXor (.r dst) (.loc (.r src)) 3 s)

/-- XOR R,IR (R164): dst <- dst XOR src. -/
def execXorRIr (dst src : RegAddr) (s : State) : Host.Outcome State Fault Refusal :=
  toOutcome (aluWrite aluXor (.r dst) (.loc (.ir src)) 3 s)

/-- XOR R,IM (R164): dst <- dst XOR src. -/
def execXorRIm (dst : RegAddr) (v : Byte) (s : State) : Host.Outcome State Fault Refusal :=
  toOutcome (aluWrite aluXor (.r dst) (.im v) 3 s)

/-- COM R (R162): dst <- NOT dst. -/
def execComR (dst : RegAddr) (s : State) : Host.Outcome State Fault Refusal :=
  toOutcome (aluUnary aluCom (.r dst) 2 s)

/-- COM IR (R162): dst <- NOT dst. -/
def execComIr (dst : RegAddr) (s : State) : Host.Outcome State Fault Refusal :=
  toOutcome (aluUnary aluCom (.ir dst) 2 s)

end Sys2Proof.Machine
end

