-- ==== Sys2Proof/Machine/ProgramControl.lean ====
section
/-! DEFINITION. The meanings of the program control instructions, 43_program_control.md R170 to R176: one definition per row of the opcode table. -/

namespace Sys2Proof.Machine

/-- JP IRR (R173): jump. -/
def execJpIpr (dst : RegAddr) (s : State) : Host.Outcome State Fault Refusal := toOutcome (jumpPair dst s)

/-- JP cc,DA (R173): jump. -/
def execJpCcDa (cc : Cond) (target : Word) (s : State) : Host.Outcome State Fault Refusal :=
  .next (jumpIf cc target 3 s)

/-- JR cc,RA (R174): relative jump. -/
def execJrCcRa (cc : Cond) (off : Byte) (s : State) : Host.Outcome State Fault Refusal :=
  .next (jumpIf cc (relativeTarget (s.next 2) off) 2 s)

/-- CALL IRR (R171): push the return address, PCL then PCH; pc <- dst. -/
def execCallIpr (dst : RegAddr) (s : State) : Host.Outcome State Fault Refusal := toOutcome (callPair dst s)

/-- CALL DA (R171): push the return address, PCL then PCH; pc <- dst. -/
def execCallDa (target : Word) (s : State) : Host.Outcome State Fault Refusal := toOutcome (callTo target 3 s)

/-- RET (R175): pop PCH, PCL. -/
def execRet (s : State) : Host.Outcome State Fault Refusal := toOutcome (returnFromCall s)

/-- IRET (R172): pop FLAGS, PCH, PCL; SYM.2 <- 1. -/
def execIret (s : State) : Host.Outcome State Fault Refusal := toOutcome (interruptReturn s)

end Sys2Proof.Machine
end

