-- ==== Sys2Proof/Machine/RotateShift.lean ====
section
/-! DEFINITION. The meanings of the rotate and shift instructions, 45_rotate_shift.md R190 to R195: one definition per row of the opcode table. -/

namespace Sys2Proof.Machine

/-- RLC R (R192): rotate left through C. -/
def execRlcR (dst : RegAddr) (s : State) : Host.Outcome State Fault Refusal :=
  toOutcome (aluUnary aluRlc (.r dst) 2 s)

/-- RLC IR (R192): rotate left through C. -/
def execRlcIr (dst : RegAddr) (s : State) : Host.Outcome State Fault Refusal :=
  toOutcome (aluUnary aluRlc (.ir dst) 2 s)

/-- RL R (R191): rotate left. -/
def execRlR (dst : RegAddr) (s : State) : Host.Outcome State Fault Refusal := toOutcome (aluUnary aluRl (.r dst) 2 s)

/-- RL IR (R191): rotate left. -/
def execRlIr (dst : RegAddr) (s : State) : Host.Outcome State Fault Refusal :=
  toOutcome (aluUnary aluRl (.ir dst) 2 s)

/-- RRC R (R194): rotate right through C. -/
def execRrcR (dst : RegAddr) (s : State) : Host.Outcome State Fault Refusal :=
  toOutcome (aluUnary aluRrc (.r dst) 2 s)

/-- RRC IR (R194): rotate right through C. -/
def execRrcIr (dst : RegAddr) (s : State) : Host.Outcome State Fault Refusal :=
  toOutcome (aluUnary aluRrc (.ir dst) 2 s)

/-- SRA R (R195): shift right arithmetic. -/
def execSraR (dst : RegAddr) (s : State) : Host.Outcome State Fault Refusal :=
  toOutcome (aluUnary aluSra (.r dst) 2 s)

/-- SRA IR (R195): shift right arithmetic. -/
def execSraIr (dst : RegAddr) (s : State) : Host.Outcome State Fault Refusal :=
  toOutcome (aluUnary aluSra (.ir dst) 2 s)

/-- RR R (R193): rotate right. -/
def execRrR (dst : RegAddr) (s : State) : Host.Outcome State Fault Refusal := toOutcome (aluUnary aluRr (.r dst) 2 s)

/-- RR IR (R193): rotate right. -/
def execRrIr (dst : RegAddr) (s : State) : Host.Outcome State Fault Refusal :=
  toOutcome (aluUnary aluRr (.ir dst) 2 s)

end Sys2Proof.Machine
end

