-- ==== Sys2Proof/Machine/Dispatch.lean ====
section
/-! DEFINITION. The dispatch: the meaning of each instruction, one arm per constructor of Instr. -/

namespace Sys2Proof.Machine

def exec (i : Instr) (s : State) : Host.Outcome State Fault Refusal :=
  match i with
  | .addWW dst src => Sys2Proof.Machine.execAddWW dst src s
  | .addWIw dst src => Sys2Proof.Machine.execAddWIw dst src s
  | .addRR dst src => Sys2Proof.Machine.execAddRR dst src s
  | .addRIr dst src => Sys2Proof.Machine.execAddRIr dst src s
  | .addRIm dst v => Sys2Proof.Machine.execAddRIm dst v s
  | .adcWW dst src => Sys2Proof.Machine.execAdcWW dst src s
  | .adcWIw dst src => Sys2Proof.Machine.execAdcWIw dst src s
  | .adcRR dst src => Sys2Proof.Machine.execAdcRR dst src s
  | .adcRIr dst src => Sys2Proof.Machine.execAdcRIr dst src s
  | .adcRIm dst v => Sys2Proof.Machine.execAdcRIm dst v s
  | .subWW dst src => Sys2Proof.Machine.execSubWW dst src s
  | .subWIw dst src => Sys2Proof.Machine.execSubWIw dst src s
  | .subRR dst src => Sys2Proof.Machine.execSubRR dst src s
  | .subRIr dst src => Sys2Proof.Machine.execSubRIr dst src s
  | .subRIm dst v => Sys2Proof.Machine.execSubRIm dst v s
  | .sbcWW dst src => Sys2Proof.Machine.execSbcWW dst src s
  | .sbcWIw dst src => Sys2Proof.Machine.execSbcWIw dst src s
  | .sbcRR dst src => Sys2Proof.Machine.execSbcRR dst src s
  | .sbcRIr dst src => Sys2Proof.Machine.execSbcRIr dst src s
  | .sbcRIm dst v => Sys2Proof.Machine.execSbcRIm dst v s
  | .orWW dst src => Sys2Proof.Machine.execOrWW dst src s
  | .orWIw dst src => Sys2Proof.Machine.execOrWIw dst src s
  | .orRR dst src => Sys2Proof.Machine.execOrRR dst src s
  | .orRIr dst src => Sys2Proof.Machine.execOrRIr dst src s
  | .orRIm dst v => Sys2Proof.Machine.execOrRIm dst v s
  | .andWW dst src => Sys2Proof.Machine.execAndWW dst src s
  | .andWIw dst src => Sys2Proof.Machine.execAndWIw dst src s
  | .andRR dst src => Sys2Proof.Machine.execAndRR dst src s
  | .andRIr dst src => Sys2Proof.Machine.execAndRIr dst src s
  | .andRIm dst v => Sys2Proof.Machine.execAndRIm dst v s
  | .tcmWW dst src => Sys2Proof.Machine.execTcmWW dst src s
  | .tcmWIw dst src => Sys2Proof.Machine.execTcmWIw dst src s
  | .tcmRR dst src => Sys2Proof.Machine.execTcmRR dst src s
  | .tcmRIr dst src => Sys2Proof.Machine.execTcmRIr dst src s
  | .tcmRIm dst v => Sys2Proof.Machine.execTcmRIm dst v s
  | .tmWW dst src => Sys2Proof.Machine.execTmWW dst src s
  | .tmWIw dst src => Sys2Proof.Machine.execTmWIw dst src s
  | .tmRR dst src => Sys2Proof.Machine.execTmRR dst src s
  | .tmRIr dst src => Sys2Proof.Machine.execTmRIr dst src s
  | .tmRIm dst v => Sys2Proof.Machine.execTmRIm dst v s
  | .cpWW dst src => Sys2Proof.Machine.execCpWW dst src s
  | .cpWIw dst src => Sys2Proof.Machine.execCpWIw dst src s
  | .cpRR dst src => Sys2Proof.Machine.execCpRR dst src s
  | .cpRIr dst src => Sys2Proof.Machine.execCpRIr dst src s
  | .cpRIm dst v => Sys2Proof.Machine.execCpRIm dst v s
  | .xorWW dst src => Sys2Proof.Machine.execXorWW dst src s
  | .xorWIw dst src => Sys2Proof.Machine.execXorWIw dst src s
  | .xorRR dst src => Sys2Proof.Machine.execXorRR dst src s
  | .xorRIr dst src => Sys2Proof.Machine.execXorRIr dst src s
  | .xorRIm dst v => Sys2Proof.Machine.execXorRIm dst v s
  | .decR dst => Sys2Proof.Machine.execDecR dst s
  | .decIr dst => Sys2Proof.Machine.execDecIr dst s
  | .rlcR dst => Sys2Proof.Machine.execRlcR dst s
  | .rlcIr dst => Sys2Proof.Machine.execRlcIr dst s
  | .incR dst => Sys2Proof.Machine.execIncR dst s
  | .incIr dst => Sys2Proof.Machine.execIncIr dst s
  | .popR dst => Sys2Proof.Machine.execPopR dst s
  | .popIr dst => Sys2Proof.Machine.execPopIr dst s
  | .comR dst => Sys2Proof.Machine.execComR dst s
  | .comIr dst => Sys2Proof.Machine.execComIr dst s
  | .pushR src => Sys2Proof.Machine.execPushR src s
  | .pushIr src => Sys2Proof.Machine.execPushIr src s
  | .rlR dst => Sys2Proof.Machine.execRlR dst s
  | .rlIr dst => Sys2Proof.Machine.execRlIr dst s
  | .clrR dst => Sys2Proof.Machine.execClrR dst s
  | .clrIr dst => Sys2Proof.Machine.execClrIr dst s
  | .rrcR dst => Sys2Proof.Machine.execRrcR dst s
  | .rrcIr dst => Sys2Proof.Machine.execRrcIr dst s
  | .sraR dst => Sys2Proof.Machine.execSraR dst s
  | .sraIr dst => Sys2Proof.Machine.execSraIr dst s
  | .rrR dst => Sys2Proof.Machine.execRrR dst s
  | .rrIr dst => Sys2Proof.Machine.execRrIr dst s
  | .incW dst => Sys2Proof.Machine.execIncW dst s
  | .jpIpr dst => Sys2Proof.Machine.execJpIpr dst s
  | .jpCcDa cc target => Sys2Proof.Machine.execJpCcDa cc target s
  | .jrCcRa cc off => Sys2Proof.Machine.execJrCcRa cc off s
  | .callIpr dst => Sys2Proof.Machine.execCallIpr dst s
  | .callDa target => Sys2Proof.Machine.execCallDa target s
  | .ldWIm dst v => Sys2Proof.Machine.execLdWIm dst v s
  | .ldWR dst src => Sys2Proof.Machine.execLdWR dst src s
  | .ldRW dst src => Sys2Proof.Machine.execLdRW dst src s
  | .ldWIw dst src => Sys2Proof.Machine.execLdWIw dst src s
  | .ldIwW dst src => Sys2Proof.Machine.execLdIwW dst src s
  | .ldRR dst src => Sys2Proof.Machine.execLdRR dst src s
  | .ldRIr dst src => Sys2Proof.Machine.execLdRIr dst src s
  | .ldRIm dst v => Sys2Proof.Machine.execLdRIm dst v s
  | .ldIrIm dst v => Sys2Proof.Machine.execLdIrIm dst v s
  | .ldIrR dst src => Sys2Proof.Machine.execLdIrR dst src s
  | .ldWX dst x n => Sys2Proof.Machine.execLdWX dst x n s
  | .ldXW x n src => Sys2Proof.Machine.execLdXW x n src s
  | .ldcWIpw dst p => Sys2Proof.Machine.execLdcWIpw dst p s
  | .ldcIpwW p src => Sys2Proof.Machine.execLdcIpwW p src s
  | .ldcWXs dst p x => Sys2Proof.Machine.execLdcWXs dst p x s
  | .ldcXsW p x src => Sys2Proof.Machine.execLdcXsW p x src s
  | .ldcWXl dst p w => Sys2Proof.Machine.execLdcWXl dst p w s
  | .ldcXlW p w src => Sys2Proof.Machine.execLdcXlW p w src s
  | .ldcWDa dst w => Sys2Proof.Machine.execLdcWDa dst w s
  | .ldcDaW w src => Sys2Proof.Machine.execLdcDaW w src s
  | .ldeWIpw dst p => Sys2Proof.Machine.execLdeWIpw dst p s
  | .ldeIpwW p src => Sys2Proof.Machine.execLdeIpwW p src s
  | .ldeWXs dst p x => Sys2Proof.Machine.execLdeWXs dst p x s
  | .ldeXsW p x src => Sys2Proof.Machine.execLdeXsW p x src s
  | .ldeWXl dst p w => Sys2Proof.Machine.execLdeWXl dst p w s
  | .ldeXlW p w src => Sys2Proof.Machine.execLdeXlW p w src s
  | .ldeWDa dst w => Sys2Proof.Machine.execLdeWDa dst w s
  | .ldeDaW w src => Sys2Proof.Machine.execLdeDaW w src s
  | .ldcd dst p => Sys2Proof.Machine.execLdcd dst p s
  | .lded dst p => Sys2Proof.Machine.execLded dst p s
  | .ldci dst p => Sys2Proof.Machine.execLdci dst p s
  | .ldei dst p => Sys2Proof.Machine.execLdei dst p s
  | .idle => Sys2Proof.Machine.execIdle s
  | .stop => Sys2Proof.Machine.execStop s
  | .di => Sys2Proof.Machine.execDi s
  | .ei => Sys2Proof.Machine.execEi s
  | .ret => Sys2Proof.Machine.execRet s
  | .iret => Sys2Proof.Machine.execIret s
  | .rcf => Sys2Proof.Machine.execRcf s
  | .scf => Sys2Proof.Machine.execScf s
  | .ccf => Sys2Proof.Machine.execCcf s
  | .nop => Sys2Proof.Machine.execNop s

end Sys2Proof.Machine
end

