-- ==== Sys2Proof/Machine/Step.lean ====
section
/-! DEFINITION. One step of the machine (60_exceptions.md R241), and the state that runs a given table word next. -/

namespace Sys2Proof.Machine

/-- One step: what the boundary settles, or the instruction at pc (R241). -/
def step (s : State) : Host.Outcome State Fault Refusal :=
  match boundary s with
  | .settled r => toOutcome r
  | .execute s =>
    match fetchInstr s with
    | .ok i => exec i s
    | .error f => .fault f

/-- The state whose next step fetches and runs the instruction of a table word (log 21). -/
def State.withFetchWord (s : State) (nbits w : Nat) : State := s.withBytesAtPc (tableBytes nbits w)

end Sys2Proof.Machine
end

