-- ==== Sys2Proof/Machine/Timing.lean ====
section
/-! DEFINITION. The cycle counts of the Format tables (70_reset_and_hazards.md R260), recorded as data. "The counts are timing
only: no rule of this spec depends on them": no step reads them (log 22). -/

namespace Sys2Proof.Machine

/-- The cycles of an instruction, given the flags before it: JP cc and JR take 12 if they jump and 10 if not (R260). -/
def instrCycles (f : Flags) : Instr → Nat
  | .jpCcDa cc _ | .jrCcRa cc _ => if f.holds cc then 12 else 10
  | .idle | .stop => 3
  | .addWW _ _ | .addWIw _ _ | .adcWW _ _ | .adcWIw _ _ | .subWW _ _ | .subWIw _ _ | .sbcWW _ _ | .sbcWIw _ _
  | .orWW _ _ | .orWIw _ _ | .andWW _ _ | .andWIw _ _ | .tcmWW _ _ | .tcmWIw _ _ | .tmWW _ _ | .tmWIw _ _
  | .cpWW _ _ | .cpWIw _ _ | .xorWW _ _ | .xorWIw _ _ | .decR _ | .decIr _ | .rlcR _ | .rlcIr _ | .incR _
  | .incIr _ | .comR _ | .comIr _ | .rlR _ | .rlIr _ | .clrR _ | .clrIr _ | .rrcR _ | .rrcIr _ | .sraR _
  | .sraIr _ | .rrR _ | .rrIr _ | .incW _ | .ldWIm _ _ | .ldWR _ _ | .ldRW _ _ | .ldWIw _ _ | .ldIwW _ _ | .di
  | .ei | .rcf | .scf | .ccf | .nop => 6
  | .addRR _ _ | .addRIr _ _ | .addRIm _ _ | .adcRR _ _ | .adcRIr _ _ | .adcRIm _ _ | .subRR _ _ | .subRIr _ _
  | .subRIm _ _ | .sbcRR _ _ | .sbcRIr _ _ | .sbcRIm _ _ | .orRR _ _ | .orRIr _ _ | .orRIm _ _ | .andRR _ _
  | .andRIr _ _ | .andRIm _ _ | .tcmRR _ _ | .tcmRIr _ _ | .tcmRIm _ _ | .tmRR _ _ | .tmRIr _ _ | .tmRIm _ _
  | .cpRR _ _ | .cpRIr _ _ | .cpRIm _ _ | .xorRR _ _ | .xorRIr _ _ | .xorRIm _ _ | .popR _ | .popIr _
  | .pushR _ | .jpIpr _ | .ldRR _ _ | .ldRIr _ _ | .ldRIm _ _ | .ldIrIm _ _ | .ldIrR _ _ | .ldWX _ _ _
  | .ldXW _ _ _ => 10
  | .pushIr _ | .ldcWIpw _ _ | .ldcIpwW _ _ | .ldeWIpw _ _ | .ldeIpwW _ _ => 12
  | .ret => 14
  | .ldcd _ _ | .lded _ _ | .ldci _ _ | .ldei _ _ | .iret => 16
  | .callIpr _ | .callDa _ | .ldcWXs _ _ _ | .ldcXsW _ _ _ | .ldeWXs _ _ _ | .ldeXsW _ _ _ => 18
  | .ldcWXl _ _ _ | .ldcXlW _ _ _ | .ldcWDa _ _ | .ldcDaW _ _ | .ldeWXl _ _ _ | .ldeXlW _ _ _ | .ldeWDa _ _
  | .ldeDaW _ _ => 20

end Sys2Proof.Machine
end

