-- ==== Sys2Proof/Safety.lean ====
section
/-! DEFINITION. The terms in which claims about the machine are stated: what a well-formed state is, what an instruction may
write, the rows of the flag table (10_state.md R29), the exact flags of an addition and a subtraction (41_arithmetic.md R141),
and the shapes of a claim about an instruction in each of its operand forms (30_encoding.md R84, R85). -/

namespace Sys2Proof.Machine

/-! ### Well-formed states -/

/-- A sound choice of the parameters (00_scope.md R6, 92_eei_decisions.md D1, D2): at most 8192 bytes of program memory,
working register pairs at even addresses, and FLAGS, SP and SYM at three addresses none of which is given away. -/
abbrev ParamsWf (p : Params) : Prop :=
  p.progSize ≤ 8192 ∧ p.wrBase.getLsbD 0 = false ∧ p.symAddr ≠ Config.flagsAddr ∧ p.symAddr ≠ Config.spAddr ∧
    ∀ a ∈ [Config.flagsAddr, Config.spAddr, p.symAddr], inRanges p.periph a = false ∧ inRanges p.unimpl a = false

/-- An address of plain storage: R33 case 5. -/
abbrev State.isPlain (s : State) (a : RegAddr) : Prop :=
  a ≠ Config.flagsAddr ∧ a ≠ Config.spAddr ∧ a ≠ s.cfg.symAddr ∧ s.refuses a = false

/-- The well-formed states: sound parameters; program memory canonical and within PROG_SIZE; data memory canonical and
within its 8192 addresses; the places of registers that are not plain storage unused. -/
abbrev State.wf (s : State) : Prop :=
  ParamsWf s.cfg ∧ s.progMem.wf ∧ (∀ c ∈ s.progMem.cells, c.1 < s.cfg.progSize) ∧
    s.dataMem.rising ∧ (∀ c ∈ s.dataMem.cells, c.1 < 8192) ∧
    ∀ a : RegAddr, ¬ s.isPlain a → s.regs[a.toNat]'a.isLt = resetRegister

/-! ### What an instruction may write -/

/-- The operand that is the register-file destination of an instruction, where it has one. -/
def destinationOf : Instr → Option Loc
  | .addWW dst _ | .addWIw dst _ | .adcWW dst _ | .adcWIw dst _ | .subWW dst _ | .subWIw dst _ | .sbcWW dst _
  | .sbcWIw dst _ | .orWW dst _ | .orWIw dst _ | .andWW dst _ | .andWIw dst _ | .xorWW dst _ | .xorWIw dst _
  | .incW dst | .ldWIm dst _ | .ldWR dst _ | .ldWIw dst _ | .ldWX dst _ _ | .ldcWIpw dst _ | .ldcWXs dst _ _
  | .ldcWXl dst _ _ | .ldcWDa dst _ | .ldeWIpw dst _ | .ldeWXs dst _ _ | .ldeWXl dst _ _ | .ldeWDa dst _
  | .ldcd dst _ | .lded dst _ | .ldci dst _ | .ldei dst _ => some (.w dst)
  | .addRR dst _ | .addRIr dst _ | .addRIm dst _ | .adcRR dst _ | .adcRIr dst _ | .adcRIm dst _ | .subRR dst _
  | .subRIr dst _ | .subRIm dst _ | .sbcRR dst _ | .sbcRIr dst _ | .sbcRIm dst _ | .orRR dst _ | .orRIr dst _
  | .orRIm dst _ | .andRR dst _ | .andRIr dst _ | .andRIm dst _ | .xorRR dst _ | .xorRIr dst _ | .xorRIm dst _
  | .decR dst | .rlcR dst | .incR dst | .popR dst | .comR dst | .rlR dst | .clrR dst | .rrcR dst | .sraR dst
  | .rrR dst | .ldRW dst _ | .ldRR dst _ | .ldRIr dst _ | .ldRIm dst _ => some (.r dst)
  | .tcmWW _ _ | .tcmWIw _ _ | .tcmRR _ _ | .tcmRIr _ _ | .tcmRIm _ _ | .tmWW _ _ | .tmWIw _ _ | .tmRR _ _
  | .tmRIr _ _ | .tmRIm _ _ | .cpWW _ _ | .cpWIw _ _ | .cpRR _ _ | .cpRIr _ _ | .cpRIm _ _ | .pushR _
  | .pushIr _ | .jpIpr _ | .jpCcDa _ _ | .jrCcRa _ _ | .callIpr _ | .callDa _ | .ldcIpwW _ _ | .ldcXsW _ _ _
  | .ldcXlW _ _ _ | .ldcDaW _ _ | .ldeIpwW _ _ | .ldeXsW _ _ _ | .ldeXlW _ _ _ | .ldeDaW _ _ | .idle | .stop
  | .di | .ei | .ret | .iret | .rcf | .scf | .ccf | .nop => none
  | .decIr dst | .rlcIr dst | .incIr dst | .popIr dst | .comIr dst | .rlIr dst | .clrIr dst | .rrcIr dst
  | .sraIr dst | .rrIr dst | .ldIrIm dst _ | .ldIrR dst _ => some (.ir dst)
  | .ldIwW dst _ => some (.iw dst)
  | .ldXW x n _ => some (.x x n)

/-- The register-file address an operand names in a state, if it can be evaluated. -/
def addressOf (l : Loc) (s : State) : List RegAddr :=
  match l.resolve s with
  | .ok (a, _) => [a]
  | .error _ => []

/-- The two addresses CALL writes its return address to, as the pushes compute them. -/
def callBytes (n : Nat) (s : State) : List RegAddr :=
  match push (loByte (s.next n)) s with
  | .ok s1 => [s.sp - 1, s1.sp - 1]
  | .error _ => [s.sp - 1]

/-- The register-file addresses an instruction writes beside its destination: SP and the stack bytes, the address pair of
LDCD, LDED, LDCI and LDEI, and SYM. -/
def alsoWrites (i : Instr) (s : State) : List RegAddr :=
  match i with
  | .pushR _ | .pushIr _ => [Config.spAddr, s.sp - 1]
  | .popR _ | .popIr _ | .ret => [Config.spAddr]
  | .callIpr _ => Config.spAddr :: callBytes 2 s
  | .callDa _ => Config.spAddr :: callBytes 3 s
  | .iret => [Config.flagsAddr, Config.spAddr, s.cfg.symAddr]
  | .di | .ei => [s.cfg.symAddr]
  | .ldcd _ p | .lded _ p | .ldci _ p | .ldei _ p => [s.wpair p, s.wpair p + 1]
  | .addWW _ _ | .addWIw _ _ | .addRR _ _ | .addRIr _ _ | .addRIm _ _ | .adcWW _ _ | .adcWIw _ _ | .adcRR _ _
  | .adcRIr _ _ | .adcRIm _ _ | .subWW _ _ | .subWIw _ _ | .subRR _ _ | .subRIr _ _ | .subRIm _ _ | .sbcWW _ _
  | .sbcWIw _ _ | .sbcRR _ _ | .sbcRIr _ _ | .sbcRIm _ _ | .orWW _ _ | .orWIw _ _ | .orRR _ _ | .orRIr _ _
  | .orRIm _ _ | .andWW _ _ | .andWIw _ _ | .andRR _ _ | .andRIr _ _ | .andRIm _ _ | .tcmWW _ _ | .tcmWIw _ _
  | .tcmRR _ _ | .tcmRIr _ _ | .tcmRIm _ _ | .tmWW _ _ | .tmWIw _ _ | .tmRR _ _ | .tmRIr _ _ | .tmRIm _ _
  | .cpWW _ _ | .cpWIw _ _ | .cpRR _ _ | .cpRIr _ _ | .cpRIm _ _ | .xorWW _ _ | .xorWIw _ _ | .xorRR _ _
  | .xorRIr _ _ | .xorRIm _ _ | .decR _ | .decIr _ | .rlcR _ | .rlcIr _ | .incR _ | .incIr _ | .comR _
  | .comIr _ | .rlR _ | .rlIr _ | .clrR _ | .clrIr _ | .rrcR _ | .rrcIr _ | .sraR _ | .sraIr _ | .rrR _
  | .rrIr _ | .incW _ | .jpIpr _ | .jpCcDa _ _ | .jrCcRa _ _ | .ldWIm _ _ | .ldWR _ _ | .ldRW _ _ | .ldWIw _ _
  | .ldIwW _ _ | .ldRR _ _ | .ldRIr _ _ | .ldRIm _ _ | .ldIrIm _ _ | .ldIrR _ _ | .ldWX _ _ _ | .ldXW _ _ _
  | .ldcWIpw _ _ | .ldcIpwW _ _ | .ldcWXs _ _ _ | .ldcXsW _ _ _ | .ldcWXl _ _ _ | .ldcXlW _ _ _ | .ldcWDa _ _
  | .ldcDaW _ _ | .ldeWIpw _ _ | .ldeIpwW _ _ | .ldeWXs _ _ _ | .ldeXsW _ _ _ | .ldeWXl _ _ _ | .ldeXlW _ _ _
  | .ldeWDa _ _ | .ldeDaW _ _ | .idle | .stop | .rcf | .scf | .ccf | .nop => []

/-- The register-file addresses an instruction writes, its flags as a side effect apart. -/
def regsWritten (i : Instr) (s : State) : List RegAddr :=
  (match destinationOf i with
    | some l => addressOf l s
    | none => []) ++ alsoWrites i s

/-- The operand of an instruction that stores to memory. -/
def memDestination : Instr → Option (Space × MemAddr)
  | .ldcIpwW p _ => some (.program, .irr p)
  | .ldcXsW p x _ => some (.program, .xs p x)
  | .ldcXlW p w _ => some (.program, .xl p w)
  | .ldcDaW w _ => some (.program, .da w)
  | .ldeIpwW p _ => some (.data, .irr p)
  | .ldeXsW p x _ => some (.data, .xs p x)
  | .ldeXlW p w _ => some (.data, .xl p w)
  | .ldeDaW w _ => some (.data, .da w)
  | .addWW _ _ | .addWIw _ _ | .addRR _ _ | .addRIr _ _ | .addRIm _ _ | .adcWW _ _ | .adcWIw _ _ | .adcRR _ _
  | .adcRIr _ _ | .adcRIm _ _ | .subWW _ _ | .subWIw _ _ | .subRR _ _ | .subRIr _ _ | .subRIm _ _ | .sbcWW _ _
  | .sbcWIw _ _ | .sbcRR _ _ | .sbcRIr _ _ | .sbcRIm _ _ | .orWW _ _ | .orWIw _ _ | .orRR _ _ | .orRIr _ _
  | .orRIm _ _ | .andWW _ _ | .andWIw _ _ | .andRR _ _ | .andRIr _ _ | .andRIm _ _ | .tcmWW _ _ | .tcmWIw _ _
  | .tcmRR _ _ | .tcmRIr _ _ | .tcmRIm _ _ | .tmWW _ _ | .tmWIw _ _ | .tmRR _ _ | .tmRIr _ _ | .tmRIm _ _
  | .cpWW _ _ | .cpWIw _ _ | .cpRR _ _ | .cpRIr _ _ | .cpRIm _ _ | .xorWW _ _ | .xorWIw _ _ | .xorRR _ _
  | .xorRIr _ _ | .xorRIm _ _ | .decR _ | .decIr _ | .rlcR _ | .rlcIr _ | .incR _ | .incIr _ | .popR _
  | .popIr _ | .comR _ | .comIr _ | .pushR _ | .pushIr _ | .rlR _ | .rlIr _ | .clrR _ | .clrIr _ | .rrcR _
  | .rrcIr _ | .sraR _ | .sraIr _ | .rrR _ | .rrIr _ | .incW _ | .jpIpr _ | .jpCcDa _ _ | .jrCcRa _ _
  | .callIpr _ | .callDa _ | .ldWIm _ _ | .ldWR _ _ | .ldRW _ _ | .ldWIw _ _ | .ldIwW _ _ | .ldRR _ _
  | .ldRIr _ _ | .ldRIm _ _ | .ldIrIm _ _ | .ldIrR _ _ | .ldWX _ _ _ | .ldXW _ _ _ | .ldcWIpw _ _
  | .ldcWXs _ _ _ | .ldcWXl _ _ _ | .ldcWDa _ _ | .ldeWIpw _ _ | .ldeWXs _ _ _ | .ldeWXl _ _ _ | .ldeWDa _ _
  | .ldcd _ _ | .lded _ _ | .ldci _ _ | .ldei _ _ | .idle | .stop | .di | .ei | .ret | .iret | .rcf | .scf
  | .ccf | .nop => none

/-- The memory byte an instruction stores to: the effective address of its memory operand (40_load.md R112). -/
def storesTo (i : Instr) (s : State) : Option (Space × Int) :=
  match memDestination i with
  | some (space, m) =>
    match m.ea s with
    | .ok (ea, _) => some (space, ea)
    | .error _ => none
  | none => none

/-! ### The flag table -/

/-- The rows of the table of 10_state.md R29. -/
inductive FlagRow where
  /-- ADC, ADD, SBC, SUB, CP, RL, RLC, RR, RRC: all four flags. -/
  | all
  /-- INC, DEC: Z, S, V. -/
  | incDec
  /-- AND, OR, XOR, COM, TCM, TM: Z, S; V cleared. -/
  | logic
  /-- SRA: C, Z, S; V cleared. -/
  | sra
  | ccf
  | rcf
  | scf
  | iret
  /-- Every other instruction: none as a side effect. -/
  | none
  deriving DecidableEq, Repr

/-- The row of an instruction in the table of R29. -/
def flagRow : Instr → FlagRow
  | .addWW _ _ | .addWIw _ _ | .addRR _ _ | .addRIr _ _ | .addRIm _ _ | .adcWW _ _ | .adcWIw _ _ | .adcRR _ _
  | .adcRIr _ _ | .adcRIm _ _ | .subWW _ _ | .subWIw _ _ | .subRR _ _ | .subRIr _ _ | .subRIm _ _ | .sbcWW _ _
  | .sbcWIw _ _ | .sbcRR _ _ | .sbcRIr _ _ | .sbcRIm _ _ | .cpWW _ _ | .cpWIw _ _ | .cpRR _ _ | .cpRIr _ _
  | .cpRIm _ _ | .rlcR _ | .rlcIr _ | .rlR _ | .rlIr _ | .rrcR _ | .rrcIr _ | .rrR _ | .rrIr _ => .all
  | .orWW _ _ | .orWIw _ _ | .orRR _ _ | .orRIr _ _ | .orRIm _ _ | .andWW _ _ | .andWIw _ _ | .andRR _ _
  | .andRIr _ _ | .andRIm _ _ | .tcmWW _ _ | .tcmWIw _ _ | .tcmRR _ _ | .tcmRIr _ _ | .tcmRIm _ _ | .tmWW _ _
  | .tmWIw _ _ | .tmRR _ _ | .tmRIr _ _ | .tmRIm _ _ | .xorWW _ _ | .xorWIw _ _ | .xorRR _ _ | .xorRIr _ _
  | .xorRIm _ _ | .comR _ | .comIr _ => .logic
  | .decR _ | .decIr _ | .incR _ | .incIr _ | .incW _ => .incDec
  | .popR _ | .popIr _ | .pushR _ | .pushIr _ | .clrR _ | .clrIr _ | .jpIpr _ | .jpCcDa _ _ | .jrCcRa _ _
  | .callIpr _ | .callDa _ | .ldWIm _ _ | .ldWR _ _ | .ldRW _ _ | .ldWIw _ _ | .ldIwW _ _ | .ldRR _ _
  | .ldRIr _ _ | .ldRIm _ _ | .ldIrIm _ _ | .ldIrR _ _ | .ldWX _ _ _ | .ldXW _ _ _ | .ldcWIpw _ _
  | .ldcIpwW _ _ | .ldcWXs _ _ _ | .ldcXsW _ _ _ | .ldcWXl _ _ _ | .ldcXlW _ _ _ | .ldcWDa _ _ | .ldcDaW _ _
  | .ldeWIpw _ _ | .ldeIpwW _ _ | .ldeWXs _ _ _ | .ldeXsW _ _ _ | .ldeWXl _ _ _ | .ldeXlW _ _ _ | .ldeWDa _ _
  | .ldeDaW _ _ | .ldcd _ _ | .lded _ _ | .ldci _ _ | .ldei _ _ | .idle | .stop | .di | .ei | .ret | .nop => .none
  | .sraR _ | .sraIr _ => .sra
  | .iret => .iret
  | .rcf => .rcf
  | .scf => .scf
  | .ccf => .ccf

/-- What a row of R29 says of the flags before and after. -/
def FlagRow.keeps (r : FlagRow) (old new : Flags) : Prop :=
  match r with
  | .all => True
  | .incDec => new.c = old.c
  | .logic => new.c = old.c ∧ new.v = false
  | .sra => new.v = false
  | .ccf => new = { old with c := !old.c }
  | .rcf => new = { old with c := false }
  | .scf => new = { old with c := true }
  | .iret => True
  | .none => new = old

/-! ### Exact flags -/

/-- Z and S of a result: zero, and negative as a two's-complement number. -/
def zeroSign (c v : Bool) (res : Byte) : Flags := ⟨c, decide (res = 0), decide (res.toInt < 0), v⟩

/-- The flags of a + b + cin: C the unsigned carry, V the exact signed overflow (R141). -/
def sumFlags (a b : Byte) (cin : Bool) : Flags :=
  zeroSign (decide (a.toNat + b.toNat + cin.toNat > 255))
    (decide (a.toInt + b.toInt + cin.toNat < -128 ∨ a.toInt + b.toInt + cin.toNat > 127))
    (a + b + BitVec.ofNat 8 cin.toNat)

/-- The flags of a - b - bin: C the unsigned borrow, V the exact signed overflow (R141, R147). -/
def differenceFlags (a b : Byte) (bin : Bool) : Flags :=
  zeroSign (decide (a.toNat < b.toNat + bin.toNat))
    (decide (a.toInt - b.toInt - bin.toNat < -128 ∨ a.toInt - b.toInt - bin.toNat > 127))
    (a - b - BitVec.ofNat 8 bin.toNat)

/-- The flags of a logic operation's result: C kept, V cleared (42_logic.md R160). -/
def logicResultFlags (old : Flags) (res : Byte) : Flags := zeroSign old.c false res

/-- The flags of a rotation's result: V says that the sign changed (45_rotate_shift.md R190). -/
def rotateResultFlags (old res : Byte) (out : Bool) : Flags :=
  zeroSign out (decide ((old.toInt < 0) ≠ (res.toInt < 0))) res

/-! ### The shapes of claims about instructions -/

/-- The five operand forms of a two-operand instruction, each with its destination and source (30_encoding.md R84). -/
def FiveForms (ww wiw : WReg → WReg → Instr) (rr rir : RegAddr → RegAddr → Instr) (rim : RegAddr → Byte → Instr)
    (P : Instr → Loc → Src → Prop) : Prop :=
  (∀ d m, P (ww d m) (.w d) (.loc (.w m))) ∧ (∀ d m, P (wiw d m) (.w d) (.loc (.iw m))) ∧
  (∀ d m, P (rr d m) (.r d) (.loc (.r m))) ∧ (∀ d m, P (rir d m) (.r d) (.loc (.ir m))) ∧
  ∀ d v, P (rim d v) (.r d) (.im v)

/-- The two operand forms of a one-operand instruction (30_encoding.md R85). -/
def TwoForms (r ir : RegAddr → Instr) (P : Instr → Loc → Prop) : Prop :=
  (∀ a, P (r a) (.r a)) ∧ ∀ a, P (ir a) (.ir a)

/-- The instruction writes result(flags, dst, src) to its destination and sets the flags so: from any state where the
destination d is not FLAGS and both operands can be read, a and b being their values, it answers exactly the state that has
the result at d, those flags, pc past the instruction, and nothing else changed but the count of draws of the reads. -/
def Computes (result : Flags → Byte → Byte → Byte) (flags : Flags → Byte → Byte → Flags) (i : Instr) (dst : Loc)
    (src : Src) : Prop :=
  ∀ s d s1 a s2 b s3, dst.resolve s = .ok (d, s1) → d ≠ Config.flagsAddr → readReg d s1 = .ok (a, s2) →
    src.value s2 = .ok (b, s3) →
    exec i s = .next ({ s3.put d (result s.flags a b) with flags := flags s.flags a b }.advance i.length)

/-- The instruction sets the flags of dst and src so and writes no destination. -/
def Tests (flags : Flags → Byte → Byte → Flags) (i : Instr) (dst : Loc) (src : Src) : Prop :=
  ∀ s a s1 b s2, dst.value s = .ok (a, s1) → src.value s1 = .ok (b, s2) →
    exec i s = .next ({ s2 with flags := flags s.flags a b }.advance i.length)

/-- The one-operand form of Computes. -/
def ComputesUnary (result : Flags → Byte → Byte) (flags : Flags → Byte → Flags) (i : Instr) (dst : Loc) : Prop :=
  ∀ s d s1 a s2, dst.resolve s = .ok (d, s1) → d ≠ Config.flagsAddr → readReg d s1 = .ok (a, s2) →
    exec i s = .next ({ s2.put d (result s.flags a) with flags := flags s.flags a }.advance i.length)

/-- The instruction loads its source into its destination, which may be FLAGS (40_load.md R111). -/
def Loads (i : Instr) (dst : Loc) (src : Src) : Prop :=
  ∀ s d s1 v s2, dst.resolve s = .ok (d, s1) → src.value s1 = .ok (v, s2) → s.refuses d = false →
    exec i s = .next ((s2.put d v).advance i.length)

/-- The byte program memory holds at an address below PROG_SIZE. -/
def State.programByte (s : State) (a : Nat) : Option Byte :=
  if a < s.cfg.progSize then some (s.progMem.read a) else none

/-- The byte of the fitted data-memory cell at an address. -/
def State.dataByte (s : State) (a : Nat) : Option Byte := s.dataMem.find a

/-- The byte a memory holds at an address, none outside it (20_memory.md R56). -/
def State.byteAt (s : State) : Space → Nat → Option Byte
  | .program => s.programByte
  | .data => s.dataByte

/-- The bytes stand in program memory from address a on. -/
def State.holdsBytes (s : State) (a : Nat) (bytes : List Byte) : Prop :=
  ∀ k (h : k < bytes.length), s.programByte (a + k) = some bytes[k]

/-- The instruction loads the program-memory byte at its effective address into working register dst (R112, R113). An
effective address outside program memory faults with the integer itself (20_memory.md R56). -/
def LoadsProgram (i : Instr) (dst : WReg) (m : MemAddr) : Prop :=
  ∀ s ea s1, m.ea s = .ok (ea, s1) →
    (0 ≤ ea → ea < s.cfg.progSize → s.refuses (s.wreg dst) = false →
      exec i s = .next ((s1.put (s.wreg dst) (s.progMem.read ea.toNat)).advance i.length)) ∧
    (ea < 0 ∨ s.cfg.progSize ≤ ea → exec i s = .fault (.addressOutOfRange .program ea))

/-- The instruction loads the data-memory byte at its effective address into working register dst (R112, R115). An
effective address where no cell is fitted faults with the integer itself (20_memory.md R56). -/
def LoadsData (i : Instr) (dst : WReg) (m : MemAddr) : Prop :=
  ∀ s ea s1, m.ea s = .ok (ea, s1) →
    (∀ v, 0 ≤ ea → s.dataMem.find ea.toNat = some v → s.refuses (s.wreg dst) = false →
      exec i s = .next ((s1.put (s.wreg dst) v).advance i.length)) ∧
    (ea < 0 ∨ s.dataMem.find ea.toNat = none → exec i s = .fault (.addressOutOfRange .data ea))

/-- The instruction stores working register src at its effective address in program memory, on a part that supports it,
and is unsupported on any other (R114). The byte then reads back there and every other byte reads as before. An effective
address outside program memory faults with the integer itself (20_memory.md R56). -/
def StoresProgram (i : Instr) (m : MemAddr) (src : WReg) : Prop :=
  ∀ s ea s1 v s2, m.ea s = .ok (ea, s1) → readReg (s.wreg src) s1 = .ok (v, s2) →
    (s.cfg.progMemWritable = true → 0 ≤ ea → ea < s.cfg.progSize →
      exec i s = .next ({ s2 with progMem := s.progMem.write ea.toNat v }.advance i.length) ∧
        (s.progMem.write ea.toNat v).read ea.toNat = v ∧
        ∀ b, b ≠ ea.toNat → (s.progMem.write ea.toNat v).read b = s.progMem.read b) ∧
    (s.cfg.progMemWritable = true → ea < 0 ∨ s.cfg.progSize ≤ ea →
      exec i s = .fault (.addressOutOfRange .program ea)) ∧
    (s.cfg.progMemWritable = false → exec i s = .fault (.unsupportedStore ea))

/-- The instruction stores working register src at its effective address in data memory (R115). The byte then reads back
there and every other byte reads as before. An effective address where no cell is fitted faults with the integer itself
(20_memory.md R56). -/
def StoresData (i : Instr) (m : MemAddr) (src : WReg) : Prop :=
  ∀ s ea s1 v s2, m.ea s = .ok (ea, s1) → readReg (s.wreg src) s1 = .ok (v, s2) →
    (0 ≤ ea → (s.dataMem.find ea.toNat).isSome →
      exec i s = .next ({ s2 with dataMem := s.dataMem.store ea.toNat v }.advance i.length) ∧
        (s.dataMem.store ea.toNat v).find ea.toNat = some v ∧
        ∀ b, b ≠ ea.toNat → (s.dataMem.store ea.toNat v).find b = s.dataMem.find b) ∧
    (ea < 0 ∨ s.dataMem.find ea.toNat = none → exec i s = .fault (.addressOutOfRange .data ea))

/-- The instruction loads through pair p and then leaves the pair at its value changed by delta, modulo 65536, when the
destination is not in the pair; when it is, D0 gives no order (R116 to R119). A pair that addresses no byte of the memory
faults with its value (20_memory.md R56). -/
def LoadsAndSteps (space : Space) (delta : Int) (i : Instr) (dst : WReg) (p : PairNo) : Prop :=
  ∀ s, (dst.toNat / 2 = p.toNat → exec i s = .fault (.unspecifiedOrder .pairDestination)) ∧
    ∀ w s1, dst.toNat / 2 ≠ p.toNat → readPair (s.wpair p) s = .ok (w, s1) →
      (∀ v, s.byteAt space w.toNat = some v → s.refuses (s.wreg dst) = false →
        exec i s = .next ((((s1.put (s.wreg dst) v).put (s.wpair p) (hiByte (BitVec.ofInt 16 (w.toNat + delta)))).put
          (s.wpair p + 1) (loByte (BitVec.ofInt 16 (w.toNat + delta)))).advance i.length)) ∧
      (s.byteAt space w.toNat = none → exec i s = .fault (.addressOutOfRange space w.toNat))

end Sys2Proof.Machine
end

