-- ==== Sys2Proof/Certificates/Slice0/Obligations.lean ====
section
/-! DEFINITION. The statements for the provers. -/

open Sys2Proof Sys2Proof.Machine

/-! ### Encoding -/

/-- Decoding the bytes of an instruction gives it back, with every operand at every value its encoding admits, and leaves the
bytes after it (30_encoding.md R71, R84 to R87, R92). The byte order of the address of JP and CALL is the spec's decision D7
(log 7). -/
def Obligations.DecodeOfEncode : Prop :=
  ∀ (i : Instr) (rest : List Byte), i.longIndexPairOk = true → decode (encode i ++ rest) = .ok (i, rest)

/-- Bytes that decode are the bytes of the instruction they decode to: no two encodings stand for one instruction, and no bit
of an encoding is dropped (30_encoding.md R91). -/
def Obligations.EncodeOfDecode : Prop :=
  ∀ (bytes rest : List Byte) (i : Instr), decode bytes = .ok (i, rest) →
    bytes = encode i ++ rest ∧ i.longIndexPairOk = true

/-- The 58 first bytes of R90 are exactly those with no instruction, and a step that fetches one raises UndefinedOpcode with
pc and the byte. That such a fetch faults is the spec's decision D10 (log 9). -/
def Obligations.UndefinedFirstBytes : Prop :=
  let undefinedBytes : List Byte :=
    [0x07, 0x17, 0x27, 0x37, 0x47, 0x57, 0x67, 0x77, 0x31, 0x40, 0x41, 0x80, 0x81, 0x82, 0x83, 0x84, 0x85, 0x86,
     0x92, 0x93, 0x94, 0x95, 0x96, 0xA0, 0xA1, 0xC2, 0xC4, 0xC5, 0xC6, 0xD2, 0xD4, 0xD5, 0xF0, 0xF1, 0xF2, 0xF3,
     0x0A, 0x1A, 0x2A, 0x3A, 0x4A, 0x5A, 0x6A, 0x7A, 0x8A, 0x9A, 0xAA, 0xBA, 0xCA, 0xDA, 0xEA, 0xFA,
     0x0F, 0x1F, 0x2F, 0x3F, 0x4F, 0x5F]
  undefinedBytes.length = 58 ∧
  (∀ (b : Byte) (rest : List Byte), decode (b :: rest) = .error (.undefinedOpcode b) ↔ b ∈ undefinedBytes) ∧
  ∀ (s : State) (b : Byte), s.mode = .run → s.input.reset = false → (s.sym2 && s.input.irq.pending) = false →
    s.programByte s.pc.toNat = some b → b ∈ undefinedBytes → step s = .fault (.undefinedOpcode s.pc b)

/-- Words of the spec's worked examples decode to the instructions they stand for. The numbering of a table word's bits is
DEDUCED (log 21); the byte order of the JP is the spec's decision D7 (log 7). -/
def Obligations.SampleWordsDecode : Prop :=
  decodeTableWord 24 0x140201 = some (.adcRR 0x01#8 0x02#8) ∧
  decodeTableWord 16 0xE287 = some (.lded 8#4 3#3) ∧
  decodeTableWord 32 0xA7020010 = some (.ldcWXl 0#4 1#3 0x1000#16) ∧
  decodeTableWord 32 0xB7010511 = some (.ldeDaW 0x1105#16 0#4) ∧
  decodeTableWord 24 0x7D1000 = some (.jpCcDa .c 0x1000#16) ∧
  decodeTableWord 24 0x971030 = some (.ldXW 0x30#8 0#4 1#4)

/-- A step with no reset and no accepted interrupt, in run mode RUN, on memory that holds the bytes of an instruction at pc,
is the execution of that instruction, this boundary's platform answer being used up (60_exceptions.md R241). The queue of
platform answers is the model's (log 13). -/
def Obligations.StepRunsDecodedInstruction : Prop :=
  ∀ (s : State) (i : Instr), s.mode = .run → s.input.reset = false → (s.sym2 && s.input.irq.pending) = false →
    i.longIndexPairOk = true → s.holdsBytes s.pc.toNat (encode i) → step s = exec i s.dropInput

/-- A fetch outside program memory faults (20_memory.md R56, 43_program_control.md R170). The spec's decisions D3 and D4 (log
5). An instruction that starts inside and runs over the end faults at the first address past it (30_encoding.md R92,
20_memory.md R65). -/
def Obligations.FetchOutsideProgramMemory : Prop :=
  ∀ s : State, s.mode = .run → s.input.reset = false → (s.sym2 && s.input.irq.pending) = false →
    (s.cfg.progSize ≤ s.pc.toNat → step s = .fault (.addressOutOfRange .program s.pc.toNat)) ∧
    ∀ i : Instr, s.programByte s.pc.toNat = (encode i).head? → s.cfg.progSize < s.pc.toNat + i.length →
      step s = .fault (.addressOutOfRange .program s.cfg.progSize)

/-! ### Boundaries: reset, interrupts, Idle and Stop mode -/

/-- Reset, in any run mode and whatever else is pending: run mode RUN, pc at RESET_PC, SYM.2 clear, program memory and the
parameters unchanged, the same data memory cells fitted (60_exceptions.md R233, 70_reset_and_hazards.md R250). The spec's
decision D17 (log 14); reset is seen at a boundary (log 24). The queue of platform answers is the model's (log 13); that the
parameters and the fitted cells stay is R43 (10_state.md section 7), as logs 1 and 15 carry it. -/
def Obligations.ResetInputResets : Prop :=
  ∀ s : State, s.input.reset = true →
    ∃ t, step s = .next t ∧ t.mode = .run ∧ t.pc = s.cfg.resetPc ∧ t.sym2 = false ∧ t.progMem = s.progMem ∧
      t.cfg = s.cfg ∧ t.inputs = s.inputs.tail ∧
      t.dataMem.cells.map (fun c => c.1) = s.dataMem.cells.map (fun c => c.1)

/-- After reset at the default parameters pc is 0100H, SYM.2 is 0 and the run mode is RUN (10_state.md R42, 00_scope.md R6).
All but the run mode are defaults that the spec suggests and marks as its own (decisions D1, D3, D9, D17; logs 2, 4, 5, 14).
-/
def Obligations.StateAfterReset : Prop :=
  State.reset.pc = 0x0100#16 ∧ State.reset.sym2 = false ∧ State.reset.mode = .run ∧
    State.reset.cfg.wrBase = 0xC0#8 ∧ State.reset.cfg.symAddr = 0xDF#8 ∧ State.reset.cfg.progSize = 8192

/-- Acceptance (60_exceptions.md R226): with SYM.2 = 1 and a request pending, in run mode RUN and without reset, the interrupt
entry happens instead of a fetch. The spec's decisions D15 and D16 (log 13). -/
def Obligations.InterruptIsAccepted : Prop :=
  ∀ s : State, s.mode = .run → s.input.reset = false → s.sym2 = true → s.input.irq.pending = true →
    step s = toOutcome (interruptEntry s.dropInput)

/-- The entry sequence (60_exceptions.md R228, R229) with its three stack bytes in plain storage: PCL, PCH and FLAGS are
pushed, SYM.2 is cleared, pc is the vector's address, and nothing else changes. The sequence and the vector are the spec's
decisions D13 and D14 (log 12). The parameters and the queue of platform answers are in the state by logs 1 and 13. -/
def Obligations.InterruptEntryEffect : Prop :=
  ∀ (s : State) (h l : Byte), s.isPlain (s.sp - 1) → s.isPlain (s.sp - 2) → s.isPlain (s.sp - 3) →
    s.programByte s.cfg.irqVector = some h → s.programByte (s.cfg.irqVector + 1) = some l →
    ∃ t, interruptEntry s = .ok t ∧ t.pc = ofBytes h l ∧ t.sp = s.sp - 3 ∧ t.sym = s.sym &&& 0xFB#8 ∧
      t.get (s.sp - 1) = loByte s.pc ∧ t.get (s.sp - 2) = hiByte s.pc ∧
      Flags.ofByte (t.get (s.sp - 3)) = s.flags ∧ t.flags = s.flags ∧ t.mode = s.mode ∧
      t.progMem = s.progMem ∧ t.dataMem = s.dataMem ∧ t.cfg = s.cfg ∧ t.inputs = s.inputs ∧
      ∀ a, a ∉ [Config.flagsAddr, Config.spAddr, s.cfg.symAddr, s.sp - 1, s.sp - 2, s.sp - 3] → t.get a = s.get a

/-- IRET right after an entry restores pc, FLAGS and SP, sets SYM.2 and leaves every register outside the frame as it was
(60_exceptions.md R230). The entry is the spec's decision D13 (log 12). The parameters are in the state by log 1. -/
def Obligations.EntryThenReturnRestores : Prop :=
  ∀ s t : State, s.isPlain (s.sp - 1) → s.isPlain (s.sp - 2) → s.isPlain (s.sp - 3) → interruptEntry s = .ok t →
    ∃ u, exec .iret t = .next u ∧ u.pc = s.pc ∧ u.flags = s.flags ∧ u.sp = s.sp ∧ u.sym = s.sym ||| 0x04#8 ∧
      u.mode = s.mode ∧ u.progMem = s.progMem ∧ u.dataMem = s.dataMem ∧ u.cfg = s.cfg ∧
      ∀ a, a ∉ [Config.flagsAddr, s.cfg.symAddr, s.sp - 1, s.sp - 2, s.sp - 3] → u.get a = s.get a

/-- A boundary in Idle mode without reset (60_exceptions.md R236): a request with SYM.2 = 1 is an entry in run mode RUN; with
SYM.2 = 0, while WAKE_WITH_IRQ_DISABLED is open, it is unpredictable; no request changes nothing. The spec's decision D18 (log
16). The queue of platform answers is the model's (log 13). -/
def Obligations.IdleBoundary : Prop :=
  ∀ s : State, s.mode = .idle → s.input.reset = false →
    (s.input.irq.pending = true → s.sym2 = true →
      step s = toOutcome (interruptEntry { s.dropInput with mode := .run })) ∧
    (s.input.irq.pending = true → s.sym2 = false → s.cfg.wakeIrqDisabled = none →
      step s = .fault (.unpredictable .idleReleased)) ∧
    (s.input.irq.pending = false → step s = .next s.dropInput)

/-- A boundary in Stop mode without reset (60_exceptions.md R237): as in Idle mode, but only an external request releases it.
The spec's decision D18 (log 16). The queue of platform answers is the model's (log 13). -/
def Obligations.StopBoundary : Prop :=
  ∀ s : State, s.mode = .stop → s.input.reset = false →
    (s.input.irq = .external → s.sym2 = true →
      step s = toOutcome (interruptEntry { s.dropInput with mode := .run })) ∧
    (s.input.irq = .external → s.sym2 = false → s.cfg.wakeIrqDisabled = none →
      step s = .fault (.unpredictable .stopReleased)) ∧
    (s.input.irq ≠ .external → step s = .next s.dropInput)

/-- Idle mode is left only by reset or a request, Stop mode only by reset or an external request (46_cpu_control.md R203,
R207; 60_exceptions.md R236, R237). The platform's answers are the queue of log 13. -/
def Obligations.HaltedModesAreLeftOnlyByRequests : Prop :=
  ∀ s t : State, step s = .next t →
    (s.mode = .idle → t.mode ≠ .idle → s.input.reset = true ∨ s.input.irq.pending = true) ∧
    (s.mode = .stop → t.mode ≠ .stop → s.input.reset = true ∨ s.input.irq = .external)

/-- With SYM.2 = 0 in run mode RUN a step does not depend on the interrupt requests (60_exceptions.md R223): two states that
differ only in the request at this boundary step alike. The requests as inputs are the spec's decision D16 (log 13). -/
def Obligations.DisabledRequestsAreInvisible : Prop :=
  ∀ (s : State) (r q : IrqRequest) (later : List BoundaryInput), s.mode = .run → s.sym2 = false →
    step { s with inputs := ⟨false, r⟩ :: later } = step { s with inputs := ⟨false, q⟩ :: later }

/-! ### The register file -/

/-- A register-file location holds what was last written to it, and a write leaves every other location alone (10_state.md
R20, R33 cases 2, 3 and 5; FLAGS apart). Working register n is the location WR_BASE + n (R22). WR_BASE is the spec's decision
D1 (log 2). The parameters, the queue of platform answers and the count of draws are in the state by logs 1, 13 and 23. -/
def Obligations.RegisterReadAfterWrite : Prop :=
  ∀ (s t : State) (a : RegAddr) (v : Byte), a ≠ Config.flagsAddr → writeReg a v s = .ok t →
    readReg a t = .ok (v, t) ∧
    (∀ b w, b ≠ Config.flagsAddr → b ≠ a → readReg b s = .ok (w, s) → readReg b t = .ok (w, t)) ∧
    t.pc = s.pc ∧ t.flags = s.flags ∧ t.mode = s.mode ∧ t.progMem = s.progMem ∧ t.dataMem = s.dataMem ∧
    t.cfg = s.cfg ∧ t.inputs = s.inputs ∧ t.draws = s.draws ∧
    ∀ n : WReg, t.wreg n = BitVec.ofNat 8 (s.cfg.wrBase.toNat + n.toNat)

/-- A register of PERIPH_REGS or UNIMPL_REGS that is not FLAGS, SP or SYM faults on a read and on a write; any other can be
read and written (10_state.md R33). The two sets are the spec's decision D2 (log 3). -/
def Obligations.RefusedRegistersFault : Prop :=
  ∀ (s : State) (a : RegAddr) (v : Byte),
    ((inRanges s.cfg.periph a = true ∨ inRanges s.cfg.unimpl a = true) →
      a ∉ [Config.flagsAddr, Config.spAddr, s.cfg.symAddr] →
      readReg a s = .error (.unmodelledRegister a) ∧ writeReg a v s = .error (.unmodelledRegister a)) ∧
    ((inRanges s.cfg.periph a = false ∧ inRanges s.cfg.unimpl a = false ∨
        a ∈ [Config.flagsAddr, Config.spAddr, s.cfg.symAddr]) →
      (∃ w t, readReg a s = .ok (w, t)) ∧ ∃ t, writeReg a v s = .ok t)

/-- A write to D5H sets C, Z, S, V from bits 7..4 and discards bits 3..0; a read gives them in bits 7..4, and no more than one
draw is used up (10_state.md R26, R28). The low bits are the spec's decision D8 (log 8). -/
def Obligations.FlagsRegisterBits : Prop :=
  ∀ (s : State) (v : Byte),
    writeReg Config.flagsAddr v s =
      .ok { s with flags := ⟨v.getLsbD 7, v.getLsbD 6, v.getLsbD 5, v.getLsbD 4⟩ } ∧
    ∃ b, readReg Config.flagsAddr s = .ok (b, { s with draws := s.draws + 1 }) ∧ b.getLsbD 7 = s.flags.c ∧
      b.getLsbD 6 = s.flags.z ∧ b.getLsbD 5 = s.flags.s ∧ b.getLsbD 4 = s.flags.v

/-- push decrements SP and then stores at it, pop loads from SP and then increments it, modulo 256 (10_state.md R32): with the
stack byte in plain storage a push and a pop give the value back and restore SP. The modulo is the spec's decision D6 (log 6).
-/
def Obligations.PushThenPop : Prop :=
  ∀ (s : State) (v : Byte), s.isPlain (s.sp - 1) →
    ∃ t u, push v s = .ok t ∧ t.sp = s.sp - 1 ∧ t.get (s.sp - 1) = v ∧ pop t = .ok (v, u) ∧ u.sp = s.sp ∧
      ∀ a, a ≠ Config.flagsAddr → a ≠ s.sp - 1 → u.get a = s.get a

/-! ### Operand forms -/

/-- The location each register-file operand form names and the value of an immediate (30_encoding.md R72 to R75, R78, R83).
WR_BASE and the wrap of an index sum are the spec's decisions D1 and D6 (logs 2 and 6). -/
def Obligations.RegisterOperandForms : Prop :=
  (∀ s n, (Loc.w n).resolve s = .ok (BitVec.ofNat 8 (s.cfg.wrBase.toNat + n.toNat), s)) ∧
  (∀ s a, (Loc.r a).resolve s = .ok (a, s)) ∧
  (∀ s n, (Loc.iw n).resolve s = readReg (BitVec.ofNat 8 (s.cfg.wrBase.toNat + n.toNat)) s) ∧
  (∀ s a, (Loc.ir a).resolve s = readReg a s) ∧
  (∀ s off n i t, readReg (s.wreg n) s = .ok (i, t) →
    (Loc.x off n).resolve s = .ok (BitVec.ofNat 8 ((off.toNat + i.toNat) % 256), t)) ∧
  ∀ s v, (Src.im v).value s = .ok (v, s)

/-- The effective address of each memory operand form, an integer, from the value of the pair whose high byte is at the even
register (40_load.md R112, 10_state.md R23). That no sum is truncated is the spec's decision D4 (log 5). -/
def Obligations.MemoryOperandForms : Prop :=
  ∀ (s : State) (p : PairNo) (hi lo : Byte), s.wpair p ≠ Config.flagsAddr → s.wpair p + 1 ≠ Config.flagsAddr →
    readReg (s.wpair p) s = .ok (hi, s) → readReg (s.wpair p + 1) s = .ok (lo, s) →
    (MemAddr.irr p).ea s = .ok ((hi.toNat * 256 + lo.toNat : Int), s) ∧
    (∀ off : Byte, (MemAddr.xs p off).ea s = .ok ((hi.toNat * 256 + lo.toNat : Int) + off.toInt, s)) ∧
    (∀ off : Word, (MemAddr.xl p off).ea s = .ok ((hi.toNat * 256 + lo.toNat : Int) + off.toNat, s)) ∧
    ∀ a : Word, (MemAddr.da a).ea s = .ok ((a.toNat : Int), s)

/-! ### Arithmetic, logic, test, rotate and shift -/

/-- add8 and sub8 of 41_arithmetic.md R141: the result modulo 256, the flags, and V as the exact signed overflow. The
exactness of V is the identity that R141 derives. It is the spec's own inference, not a statement of D0. -/
def Obligations.AddAndSubtractFlagsExact : Prop :=
  ∀ (a b : Byte) (cin : Bool),
    (add8 a b cin).1.toNat = (a.toNat + b.toNat + cin.toNat) % 256 ∧
    (add8 a b cin).2 = sumFlags a b cin ∧
    (add8 a b cin).2.v = (a.msb == b.msb && (add8 a b cin).1.msb != a.msb) ∧
    ((sub8 a b cin).1.toNat : Int) = ((a.toNat : Int) - b.toNat - cin.toNat) % 256 ∧
    (sub8 a b cin).2 = differenceFlags a b cin ∧
    (sub8 a b cin).2.v = (a.msb != b.msb && (sub8 a b cin).1.msb == b.msb)

/-- The truth of each condition code on the flags; codes 8..F negate codes 0..7 (30_encoding.md R86). -/
def Obligations.ConditionCodes : Prop :=
  ∀ f : Flags,
    f.holds (Cond.ofCode 0x0#4) = false ∧ f.holds (Cond.ofCode 0x8#4) = true ∧
    f.holds (Cond.ofCode 0x7#4) = f.c ∧ f.holds (Cond.ofCode 0xF#4) = !f.c ∧
    f.holds (Cond.ofCode 0x6#4) = f.z ∧ f.holds (Cond.ofCode 0xE#4) = !f.z ∧
    f.holds (Cond.ofCode 0xD#4) = !f.s ∧ f.holds (Cond.ofCode 0x5#4) = f.s ∧
    f.holds (Cond.ofCode 0x4#4) = f.v ∧ f.holds (Cond.ofCode 0xC#4) = !f.v ∧
    f.holds (Cond.ofCode 0x9#4) = !(f.s ^^ f.v) ∧ f.holds (Cond.ofCode 0x1#4) = (f.s ^^ f.v) ∧
    f.holds (Cond.ofCode 0xA#4) = !(f.z || (f.s ^^ f.v)) ∧ f.holds (Cond.ofCode 0x2#4) = (f.z || (f.s ^^ f.v)) ∧
    f.holds (Cond.ofCode 0xB#4) = (!f.c && !f.z) ∧ f.holds (Cond.ofCode 0x3#4) = (f.c || f.z) ∧
    ∀ low : BitVec 3, f.holds (Cond.ofCode (1#1 ++ low)) = !f.holds (Cond.ofCode (0#1 ++ low))

/-- ADD in its five forms (41_arithmetic.md R143): the destination gets the sum, C is the carry, V the exact signed overflow,
the old C is not used, nothing else changes. -/
def Obligations.AddResult : Prop :=
  FiveForms .addWW .addWIw .addRR .addRIr .addRIm
    (Computes (fun _ a b => a + b) fun _ a b => sumFlags a b false)

/-- ADC in its five forms (41_arithmetic.md R142): the old C is added. -/
def Obligations.AdcResult : Prop :=
  FiveForms .adcWW .adcWIw .adcRR .adcRIr .adcRIm
    (Computes (fun f a b => a + b + BitVec.ofNat 8 f.c.toNat) fun f a b => sumFlags a b f.c)

/-- SUB in its five forms (41_arithmetic.md R148): C is the borrow. -/
def Obligations.SubResult : Prop :=
  FiveForms .subWW .subWIw .subRR .subRIr .subRIm
    (Computes (fun _ a b => a - b) fun _ a b => differenceFlags a b false)

/-- SBC in its five forms (41_arithmetic.md R147): the old C is subtracted; C is 1 iff unsigned dst < src + c. -/
def Obligations.SbcResult : Prop :=
  FiveForms .sbcWW .sbcWIw .sbcRR .sbcRIr .sbcRIm
    (Computes (fun f a b => a - b - BitVec.ofNat 8 f.c.toNat) fun f a b => differenceFlags a b f.c)

/-- CP in its five forms (41_arithmetic.md R144): the flags of dst - src, and no register written. -/
def Obligations.CpFlags : Prop :=
  FiveForms .cpWW .cpWIw .cpRR .cpRIr .cpRIm (Tests fun _ a b => differenceFlags a b false)

/-- AND, OR, XOR in their five forms and COM in its two (42_logic.md R160 to R164): the bitwise result; C unaffected, Z and S
from the result, V cleared. -/
def Obligations.LogicResults : Prop :=
  FiveForms .andWW .andWIw .andRR .andRIr .andRIm
    (Computes (fun _ a b => a &&& b) fun f a b => logicResultFlags f (a &&& b)) ∧
  FiveForms .orWW .orWIw .orRR .orRIr .orRIm
    (Computes (fun _ a b => a ||| b) fun f a b => logicResultFlags f (a ||| b)) ∧
  FiveForms .xorWW .xorWIw .xorRR .xorRIr .xorRIm
    (Computes (fun _ a b => a ^^^ b) fun f a b => logicResultFlags f (a ^^^ b)) ∧
  TwoForms .comR .comIr (ComputesUnary (fun _ a => a ^^^ 0xFF#8) fun f a => logicResultFlags f (a ^^^ 0xFF#8))

/-- TM and TCM in their five forms (44_bit_manipulation.md R185, R186): the flags of dst AND src and of (NOT dst) AND src,
and no register written. -/
def Obligations.TestUnderMaskFlags : Prop :=
  FiveForms .tmWW .tmWIw .tmRR .tmRIr .tmRIm (Tests fun f a b => logicResultFlags f (a &&& b)) ∧
  FiveForms .tcmWW .tcmWIw .tcmRR .tcmRIr .tcmRIm (Tests fun f a b => logicResultFlags f ((a ^^^ 0xFF#8) &&& b))

/-- INC in its three forms and DEC in its two (41_arithmetic.md R145, R146): C unaffected, V the exact signed overflow. -/
def Obligations.IncrementAndDecrementResults : Prop :=
  let inc := ComputesUnary (fun _ a => a + 1) fun f a => zeroSign f.c (decide (a.toInt + 1 > 127)) (a + 1)
  TwoForms .incR .incIr inc ∧ (∀ n, inc (.incW n) (.w n)) ∧
  TwoForms .decR .decIr
    (ComputesUnary (fun _ a => a - 1) fun f a => zeroSign f.c (decide (a.toInt - 1 < -128)) (a - 1))

/-- RL, RLC, RR, RRC in their two forms (45_rotate_shift.md R190 to R194): the rotated value, C the bit that left the byte, V
that the sign changed. -/
def Obligations.RotateResults : Prop :=
  let rl (a : Byte) : Byte := BitVec.ofNat 8 (a.toNat * 2 % 256 + a.toNat / 128)
  let rlc (f : Flags) (a : Byte) : Byte := BitVec.ofNat 8 (a.toNat * 2 % 256 + f.c.toNat)
  let rr (a : Byte) : Byte := BitVec.ofNat 8 (a.toNat / 2 + a.toNat % 2 * 128)
  let rrc (f : Flags) (a : Byte) : Byte := BitVec.ofNat 8 (a.toNat / 2 + f.c.toNat * 128)
  TwoForms .rlR .rlIr
    (ComputesUnary (fun _ a => rl a) fun _ a => rotateResultFlags a (rl a) (decide (a.toNat ≥ 128))) ∧
  TwoForms .rlcR .rlcIr
    (ComputesUnary rlc fun f a => rotateResultFlags a (rlc f a) (decide (a.toNat ≥ 128))) ∧
  TwoForms .rrR .rrIr
    (ComputesUnary (fun _ a => rr a) fun _ a => rotateResultFlags a (rr a) (decide (a.toNat % 2 = 1))) ∧
  TwoForms .rrcR .rrcIr
    (ComputesUnary rrc fun f a => rotateResultFlags a (rrc f a) (decide (a.toNat % 2 = 1)))

/-- SRA in its two forms (45_rotate_shift.md R195): the signed value halved towards minus infinity, the remainder in C, V
cleared. -/
def Obligations.ShiftRightArithmeticResult : Prop :=
  TwoForms .sraR .sraIr
    (ComputesUnary (fun _ a => BitVec.ofInt 8 (a.toInt / 2)) fun _ a =>
      zeroSign (decide (a.toInt % 2 = 1)) false (BitVec.ofInt 8 (a.toInt / 2)))

/-- A flag-setting instruction whose resolved destination is FLAGS is unpredictable, however the destination is named
(10_state.md R30). For instructions other than AND this is the spec's decision D22 (log 18). -/
def Obligations.FlagsDestinationIsUnpredictable : Prop :=
  let bad (i : Instr) (dst : Loc) : Prop :=
    ∀ s t, dst.resolve s = .ok (Config.flagsAddr, t) → exec i s = .fault (.unpredictable .flagsDestination)
  let five (ww wiw : WReg → WReg → Instr) (rr rir : RegAddr → RegAddr → Instr) (rim : RegAddr → Byte → Instr) : Prop :=
    FiveForms ww wiw rr rir rim fun i dst _ => bad i dst
  five .addWW .addWIw .addRR .addRIr .addRIm ∧ five .adcWW .adcWIw .adcRR .adcRIr .adcRIm ∧
  five .subWW .subWIw .subRR .subRIr .subRIm ∧ five .sbcWW .sbcWIw .sbcRR .sbcRIr .sbcRIm ∧
  five .andWW .andWIw .andRR .andRIr .andRIm ∧ five .orWW .orWIw .orRR .orRIr .orRIm ∧
  five .xorWW .xorWIw .xorRR .xorRIr .xorRIm ∧ (∀ n, bad (.incW n) (.w n)) ∧
  TwoForms .incR .incIr bad ∧ TwoForms .decR .decIr bad ∧ TwoForms .comR .comIr bad ∧ TwoForms .rlR .rlIr bad ∧
  TwoForms .rlcR .rlcIr bad ∧ TwoForms .rrR .rrIr bad ∧ TwoForms .rrcR .rrcIr bad ∧ TwoForms .sraR .sraIr bad

/-! ### Loads and stores -/

/-- LD in its twelve forms and CLR in its two (40_load.md R110, R111): the destination gets the source, no flag is set as a
side effect, nothing else changes. -/
def Obligations.LoadAndClearResults : Prop :=
  (∀ n v, Loads (.ldWIm n v) (.w n) (.im v)) ∧ (∀ n a, Loads (.ldWR n a) (.w n) (.loc (.r a))) ∧
  (∀ a n, Loads (.ldRW a n) (.r a) (.loc (.w n))) ∧ (∀ n m, Loads (.ldWIw n m) (.w n) (.loc (.iw m))) ∧
  (∀ n m, Loads (.ldIwW n m) (.iw n) (.loc (.w m))) ∧ (∀ d a, Loads (.ldRR d a) (.r d) (.loc (.r a))) ∧
  (∀ d a, Loads (.ldRIr d a) (.r d) (.loc (.ir a))) ∧ (∀ d v, Loads (.ldRIm d v) (.r d) (.im v)) ∧
  (∀ d v, Loads (.ldIrIm d v) (.ir d) (.im v)) ∧ (∀ d a, Loads (.ldIrR d a) (.ir d) (.loc (.r a))) ∧
  (∀ n x m, Loads (.ldWX n x m) (.w n) (.loc (.x x m))) ∧ (∀ x m n, Loads (.ldXW x m n) (.x x m) (.loc (.w n))) ∧
  TwoForms .clrR .clrIr fun i dst => Loads i dst (.im 0x00#8)

/-- LDC and LDE with a register destination in their four forms each (40_load.md R113, R115). An effective address outside the
memory faults with the untruncated integer (20_memory.md R56), by the spec's decision D4 (log 5) and, for data memory, D21
(log 15). -/
def Obligations.MemoryLoadResults : Prop :=
  (∀ n p, LoadsProgram (.ldcWIpw n p) n (.irr p)) ∧ (∀ n p x, LoadsProgram (.ldcWXs n p x) n (.xs p x)) ∧
  (∀ n p w, LoadsProgram (.ldcWXl n p w) n (.xl p w)) ∧ (∀ n w, LoadsProgram (.ldcWDa n w) n (.da w)) ∧
  (∀ n p, LoadsData (.ldeWIpw n p) n (.irr p)) ∧ (∀ n p x, LoadsData (.ldeWXs n p x) n (.xs p x)) ∧
  (∀ n p w, LoadsData (.ldeWXl n p w) n (.xl p w)) ∧ ∀ n w, LoadsData (.ldeWDa n w) n (.da w)

/-- LDC and LDE with a memory destination in their four forms each (40_load.md R114, R115). The fault of an unsupported store
is the spec's decision D20 (log 17). The byte stored reads back at the effective address. An effective address outside the
memory faults with the untruncated integer (20_memory.md R56), by the spec's decision D4 (log 5) and, for data memory, D21
(log 15). -/
def Obligations.MemoryStoreResults : Prop :=
  (∀ n p, StoresProgram (.ldcIpwW p n) (.irr p) n) ∧ (∀ n p x, StoresProgram (.ldcXsW p x n) (.xs p x) n) ∧
  (∀ n p w, StoresProgram (.ldcXlW p w n) (.xl p w) n) ∧ (∀ n w, StoresProgram (.ldcDaW w n) (.da w) n) ∧
  (∀ n p, StoresData (.ldeIpwW p n) (.irr p) n) ∧ (∀ n p x, StoresData (.ldeXsW p x n) (.xs p x) n) ∧
  (∀ n p w, StoresData (.ldeXlW p w n) (.xl p w) n) ∧ ∀ n w, StoresData (.ldeDaW w n) (.da w) n

/-- LDCD, LDED, LDCI, LDEI (40_load.md R116 to R119): the byte is loaded and the pair stepped down or up by one modulo 65536;
a destination inside the pair is UnspecifiedOrder. The modulo is the spec's decision D5 (log 6), the fault its decision D12
(log 11). A pair that addresses no byte of the memory faults (20_memory.md R56), by the spec's decisions D4 (log 5) and D21
(log 15). -/
def Obligations.SteppingLoadResults : Prop :=
  (∀ n p, LoadsAndSteps .program (-1) (.ldcd n p) n p) ∧
  (∀ n p, LoadsAndSteps .data (-1) (.lded n p) n p) ∧
  (∀ n p, LoadsAndSteps .program 1 (.ldci n p) n p) ∧
  ∀ n p, LoadsAndSteps .data 1 (.ldei n p) n p

/-- PUSH in its two forms (40_load.md R121): SP down by one, the source stored at the new SP, nothing else; SP as the source
or as the pointer is UnspecifiedOrder. The spec's decisions D6 (log 6) and D12 (log 11). -/
def Obligations.PushResult : Prop :=
  TwoForms .pushR .pushIr fun i src =>
    ∀ s a s1, src.resolve s = .ok (a, s1) →
      (a = Config.spAddr ∨ src = .ir Config.spAddr → exec i s = .fault (.unspecifiedOrder .pushOfSp)) ∧
      ∀ v s2, a ≠ Config.spAddr → src ≠ .ir Config.spAddr → readReg a s1 = .ok (v, s2) →
        s.refuses (s.sp - 1) = false →
        exec i s = .next ((State.put { s2 with sp := s.sp - 1 } (s.sp - 1) v).advance i.length)

/-- POP in its two forms (40_load.md R120): the byte at SP goes to the destination, which may be FLAGS, and SP goes up by one;
SP as the destination or as the pointer is UnspecifiedOrder. The spec's decisions D6 (log 6) and D12 (log 11). -/
def Obligations.PopResult : Prop :=
  TwoForms .popR .popIr fun i dst =>
    ∀ s d s1, dst.resolve s = .ok (d, s1) →
      (d = Config.spAddr ∨ dst = .ir Config.spAddr → exec i s = .fault (.unspecifiedOrder .popOfSp)) ∧
      ∀ v s2, d ≠ Config.spAddr → dst ≠ .ir Config.spAddr → readReg s.sp s1 = .ok (v, s2) → s.refuses d = false →
        exec i s = .next ((State.put { s2 with sp := s.sp + 1 } d v).advance i.length)

/-! ### Program control -/

/-- CALL in its two forms (43_program_control.md R171): next is pushed, PCL first, and pc is the direct address or the value
of the even pair; with the two stack bytes in plain storage PCH is at the new SP and PCL above it, and nothing else changes.
The modulo of SP and the pairs left out are the spec's decisions D6 (log 6) and D12 (log 11). -/
def Obligations.CallResult : Prop :=
  (∀ (s s1 s2 : State) (target : Word), push (loByte (s.pc + 3)) s = .ok s1 → push (hiByte (s.pc + 3)) s1 = .ok s2 →
    exec (.callDa target) s = .next { s2 with pc := target }) ∧
  (∀ (s s1 s2 s3 : State) (a : RegAddr) (target : Word), a.toNat % 2 = 0 → a ≠ 0xD8#8 →
    (∀ b ∈ [a, a + 1], b ∉ [s.sp - 1, s.sp - 2]) → readPair a s = .ok (target, s1) →
    push (loByte (s.pc + 2)) s1 = .ok s2 → push (hiByte (s.pc + 2)) s2 = .ok s3 →
    exec (.callIpr a) s = .next { s3 with pc := target }) ∧
  ∀ (s : State) (target : Word), s.isPlain (s.sp - 1) → s.isPlain (s.sp - 2) →
    ∃ t, exec (.callDa target) s = .next t ∧ t.pc = target ∧ t.sp = s.sp - 2 ∧
      t.get (s.sp - 1) = loByte (s.pc + 3) ∧ t.get (s.sp - 2) = hiByte (s.pc + 3) ∧ t.flags = s.flags ∧ t.sym = s.sym ∧
      t.progMem = s.progMem ∧ t.dataMem = s.dataMem ∧
      ∀ b, b ∉ [Config.flagsAddr, Config.spAddr, s.sp - 1, s.sp - 2] → t.get b = s.get b

/-- JP IRR and CALL IRR with an odd pair address raise OddPair; CALL IRR with its pair in the stack bytes it writes, or the
pair D8H, raises UnspecifiedOrder (30_encoding.md R77, 43_program_control.md R171, R173). The spec's decisions D11 (log 10)
and D12 (log 11). -/
def Obligations.PairOperandFaults : Prop :=
  ∀ (s : State) (a : RegAddr),
    (a.toNat % 2 = 1 → exec (.jpIpr a) s = .fault (.oddPair a) ∧ exec (.callIpr a) s = .fault (.oddPair a)) ∧
    ∀ (target : Word) (s1 : State), a.toNat % 2 = 0 → readPair a s = .ok (target, s1) →
      (a = 0xD8#8 ∨ ∃ b ∈ [a, a + 1], b ∈ [s.sp - 1, s.sp - 2]) →
      exec (.callIpr a) s = .fault (.unspecifiedOrder .callPair)

/-- JP in its two forms (43_program_control.md R173): pc is the direct address if the condition holds and next if not; through
an even pair, the value of the pair. -/
def Obligations.JumpResult : Prop :=
  (∀ (s : State) (cc : Cond) (target : Word),
    exec (.jpCcDa cc target) s = .next { s with pc := if s.flags.holds cc then target else s.pc + 3 }) ∧
  ∀ (s s1 : State) (a : RegAddr) (target : Word), a.toNat % 2 = 0 → readPair a s = .ok (target, s1) →
    exec (.jpIpr a) s = .next { s1 with pc := target }

/-- JR (43_program_control.md R174): if the condition holds pc is next plus the signed displacement modulo 65536, and next if
not; nothing else changes. The modulo is the spec's decision D24 (log 6). So the statement is R82 and that decision together.
-/
def Obligations.RelativeJumpResult : Prop :=
  ∀ (s : State) (cc : Cond) (off : Byte),
    exec (.jrCcRa cc off) s = .next { s with
      pc := if s.flags.holds cc then BitVec.ofInt 16 (s.pc.toNat + 2 + off.toInt) else s.pc + 2 }

/-- RET (43_program_control.md R175): PCH and then PCL are popped; with both bytes in plain storage only pc and SP change. SP
is modulo 256 by the spec's decision D6 (log 6). -/
def Obligations.ReturnResult : Prop :=
  (∀ (s s1 s2 : State) (hi lo : Byte), pop s = .ok (hi, s1) → pop s1 = .ok (lo, s2) →
    exec .ret s = .next { s2 with pc := ofBytes hi lo }) ∧
  ∀ s : State, s.isPlain s.sp → s.isPlain (s.sp + 1) →
    exec .ret s = .next { s with sp := s.sp + 2, pc := ofBytes (s.get s.sp) (s.get (s.sp + 1)) }

/-- IRET (43_program_control.md R172): FLAGS, PCH and PCL are popped and SYM.2 is set, its other bits unchanged; with the
three bytes in plain storage only pc, SP, FLAGS and SYM change. SP is modulo 256 by the spec's decision D6 (log 6). -/
def Obligations.InterruptReturnResult : Prop :=
  (∀ (s s1 s2 s3 : State) (f hi lo : Byte), pop s = .ok (f, s1) →
    pop { s1 with flags := Flags.ofByte f } = .ok (hi, s2) → pop s2 = .ok (lo, s3) →
    exec .iret s = .next { s3 with sym := s3.sym ||| 0x04#8, pc := ofBytes hi lo }) ∧
  ∀ s : State, s.isPlain s.sp → s.isPlain (s.sp + 1) → s.isPlain (s.sp + 2) →
    exec .iret s = .next { s with
      flags := Flags.ofByte (s.get s.sp), sp := s.sp + 3, pc := ofBytes (s.get (s.sp + 1)) (s.get (s.sp + 2)),
      sym := s.sym ||| 0x04#8 }

/-- A CALL followed by a RET continues at the address after the CALL with SP as before (43_program_control.md R176). -/
def Obligations.CallThenReturn : Prop :=
  ∀ (s t : State) (i : Instr), s.isPlain (s.sp - 1) → s.isPlain (s.sp - 2) →
    (∃ target, i = .callDa target) ∨ (∃ a, i = .callIpr a) → exec i s = .next t →
    ∃ u, exec .ret t = .next u ∧ u.pc = s.pc + BitVec.ofNat 16 i.length ∧ u.sp = s.sp ∧ u.flags = s.flags ∧
      u.sym = s.sym ∧ ∀ b, b ∉ [Config.flagsAddr, s.sp - 1, s.sp - 2] → u.get b = s.get b

/-! ### CPU control -/

/-- CCF, RCF, SCF (46_cpu_control.md R200, R205, R206): one byte, 6 cycles; C complemented, cleared, set, and pc to next;
nothing else changes. -/
def Obligations.CarryInstructions : Prop :=
  ∀ s : State,
    (encode .ccf = [0xEF#8] ∧ instrCycles s.flags .ccf = 6 ∧
      exec .ccf s = .next { s with flags := { s.flags with c := !s.flags.c }, pc := s.pc + 1 }) ∧
    (encode .rcf = [0xCF#8] ∧ instrCycles s.flags .rcf = 6 ∧
      exec .rcf s = .next { s with flags := { s.flags with c := false }, pc := s.pc + 1 }) ∧
    (encode .scf = [0xDF#8] ∧ instrCycles s.flags .scf = 6 ∧
      exec .scf s = .next { s with flags := { s.flags with c := true }, pc := s.pc + 1 })

/-- DI and EI (46_cpu_control.md R201, R202): bit 2 of SYM is cleared and set, its other bits and everything else but pc
unchanged. That they answer a next state also where SYM_ADDR lies in PERIPH_REGS, or is D5H or D9H, is DEDUCED from the order
of R33 (log 4); the preamble of 46_cpu_control.md names a fault for the former, a configuration error. -/
def Obligations.InterruptEnableInstructions : Prop :=
  ∀ s : State,
    (∃ t, exec .di s = .next t ∧ t = { s with sym := t.sym, pc := s.pc + 1 } ∧ t.sym2 = false ∧
      ∀ k, k ≠ 2 → t.sym.getLsbD k = s.sym.getLsbD k) ∧
    ∃ t, exec .ei s = .next t ∧ t = { s with sym := t.sym, pc := s.pc + 1 } ∧ t.sym2 = true ∧
      ∀ k, k ≠ 2 → t.sym.getLsbD k = s.sym.getLsbD k

/-- NOP (46_cpu_control.md R204): one byte FFH, 6 cycles; no state other than pc changes. -/
def Obligations.NopChangesOnlyPc : Prop :=
  ∀ s : State, encode .nop = [0xFF#8] ∧ instrCycles s.flags .nop = 6 ∧ exec .nop s = .next { s with pc := s.pc + 1 }

/-- IDLE and STOP (46_cpu_control.md R203, R207): pc past the byte, the run mode IDLE or STOP, and nothing else changes. -/
def Obligations.IdleAndStopInstructions : Prop :=
  ∀ s : State, exec .idle s = .next { s with pc := s.pc + 1, mode := .idle } ∧
    exec .stop s = .next { s with pc := s.pc + 1, mode := .stop }

/-! ### Frames -/

/-- Every instruction leaves every register-file location but those it writes as it was; the locations are computed by the
operand forms and pushes themselves. FLAGS is the subject of FlagTable. -/
def Obligations.RegisterFrame : Prop :=
  ∀ (i : Instr) (s t : State), exec i s = .next t →
    ∀ a, a ≠ Config.flagsAddr → a ∉ regsWritten i s → t.get a = s.get a

/-- Every instruction leaves every byte of program memory and of data memory as it was, but the one that an LDC or LDE store
form stores to; the address is the effective address of its memory operand. -/
def Obligations.MemoryFrame : Prop :=
  ∀ (i : Instr) (s t : State), exec i s = .next t →
    (∀ a : Nat, storesTo i s ≠ some (.program, (a : Int)) → t.progMem.read a = s.progMem.read a) ∧
    ∀ a : Nat, storesTo i s ≠ some (.data, (a : Int)) → t.dataMem.find a = s.dataMem.find a

/-- The flag table (10_state.md R29): where an instruction does not write D5H as a register, its row of the table says which
flags it leaves, clears, sets or complements. -/
def Obligations.FlagTable : Prop :=
  ∀ (i : Instr) (s t : State), exec i s = .next t → Config.flagsAddr ∉ regsWritten i s →
    (flagRow i).keeps s.flags t.flags

/-- Every instruction leaves the parameters and the platform's answers alone; SP changes only where D9H is written; SYM only
where SYM_ADDR is; the run mode only by IDLE and STOP. That the parameters are carried in the state is log 1, the queue of
platform answers log 13, and that neither is changed by an instruction R43 (10_state.md section 7). -/
def Obligations.ControlStateFrame : Prop :=
  ∀ (i : Instr) (s t : State), exec i s = .next t →
    t.cfg = s.cfg ∧ t.inputs = s.inputs ∧ (Config.spAddr ∉ regsWritten i s → t.sp = s.sp) ∧
    (s.cfg.symAddr ∉ regsWritten i s → t.sym = s.sym) ∧ (i ≠ .idle → i ≠ .stop → t.mode = s.mode)

/-! ### Invariants of every step -/

/-- Every step keeps a well-formed state well formed: memories canonical and within their sizes, the parameters sound, the
places of special and refused registers unused. What the unused places hold is the model's choice (log 14). -/
def Obligations.EveryStepKeepsWellFormed : Prop :=
  ∀ s t : State, s.wf → step s = .next t → t.wf

/-- The state after reset is well formed. Its register values are the model's choice (log 14). -/
def Obligations.ResetIsWellFormed : Prop := State.reset.wf

/-- No step changes the parameters or fits or removes a data-memory cell (10_state.md R43). That the parameters are carried in
the state is the model's choice (log 1). That the same cells stay fitted, after a reset event too, is R43 with log 15. -/
def Obligations.EveryStepKeepsTheConfiguration : Prop :=
  ∀ s t : State, s.wf → step s = .next t →
    t.cfg = s.cfg ∧ t.dataMem.cells.map (fun c => c.1) = s.dataMem.cells.map (fun c => c.1)

/-- On a part whose program memory cannot be written no step changes it, reset and interrupts included (20_memory.md R57,
10_state.md R38). The parameter is the spec's decision D20 (log 17). -/
def Obligations.MaskedRomIsNeverWritten : Prop :=
  ∀ s t : State, s.cfg.progMemWritable = false → step s = .next t → t.progMem = s.progMem
end

