-- ==== Sys2Proof/Laws/Memory.lean ====
section
/-! SUPPORT. The laws of a memory: a read after a write, and the canonical form every write keeps. -/

namespace Sys2Proof.Machine

theorem findCell_insertCell (a b : Nat) (v : Byte) (cells : List Host.Cell) :
    findCell b (insertCell a v cells) = if b = a then some v else findCell b cells := by
  induction cells with
  | nil => simp [insertCell, findCell, eq_comm]
  | cons c rest ih =>
    obtain ⟨k, w⟩ := c
    simp only [insertCell]
    split_ifs <;> simp_all [findCell, eq_comm]

theorem findCell_eraseCell (a b : Nat) (cells : List Host.Cell) :
    findCell b (eraseCell a cells) = if b = a then none else findCell b cells := by
  induction cells with
  | nil => simp [eraseCell, findCell]
  | cons c rest ih =>
    obtain ⟨k, w⟩ := c
    simp only [eraseCell] at ih
    by_cases h : k = a <;> simp [eraseCell, findCell, h, ih] <;> split_ifs <;> simp_all

theorem mem_insertCell {a : Nat} {v : Byte} {cells : List Host.Cell} {c : Host.Cell}
    (h : c ∈ insertCell a v cells) : c = (a, v) ∨ c ∈ cells := by
  induction cells with
  | nil => simpa [insertCell] using h
  | cons d rest ih =>
    simp only [insertCell] at h
    split_ifs at h <;> simp_all <;> tauto

theorem find_store (m : Memory) (a b : Nat) (v : Byte) :
    (m.store a v).find b = if b = a then some v else m.find b :=
  findCell_insertCell a b v m.cells

theorem read_write (m : Memory) (a b : Nat) (v : Byte) :
    (m.write a v).read b = if b = a then v else m.read b := by
  unfold Memory.write Memory.read
  by_cases hv : v = unprogrammedByte
  · simp only [hv, if_true, Memory.find, findCell_eraseCell]; split_ifs <;> simp
  · simp only [hv, if_false, find_store]; split_ifs <;> simp

theorem rising_store {m : Memory} (h : m.rising) (a : Nat) (v : Byte) : (m.store a v).rising := by
  obtain ⟨cells⟩ := m
  simp only [Memory.rising, Memory.store] at *
  induction cells with
  | nil => simp [insertCell]
  | cons c rest ih =>
    obtain ⟨k, w⟩ := c
    rw [List.pairwise_cons] at h
    simp only [insertCell]
    split_ifs with h1 h2
    · refine List.pairwise_cons.2 ⟨fun d hd => ?_, List.pairwise_cons.2 h⟩
      rcases List.mem_cons.1 hd with rfl | hd
      · exact h1
      · exact h1.trans (h.1 d hd)
    · subst h2; exact List.pairwise_cons.2 h
    · refine List.pairwise_cons.2 ⟨fun d hd => ?_, ih h.2⟩
      rcases mem_insertCell hd with rfl | hd
      · show k < a; omega
      · exact h.1 d hd

theorem wf_write {m : Memory} (h : m.wf) (a : Nat) (v : Byte) : (m.write a v).wf := by
  unfold Memory.write
  split_ifs with hv
  · exact ⟨h.1.filter _, fun c hc => h.2 c (List.mem_filter.1 hc).1⟩
  · refine ⟨rising_store h.1 a v, fun c hc => ?_⟩
    rcases mem_insertCell hc with rfl | hc
    · exact hv
    · exact h.2 c hc

/-- New contents at the same addresses keep the order: what a reset event does to data memory. -/
theorem rising_map {m : Memory} (h : m.rising) (f : Host.Cell → Byte) :
    Memory.rising ⟨m.cells.map fun c => (c.1, f c)⟩ := by
  simpa only [Memory.rising, List.pairwise_map] using h

/-- A write lists no address but its own that was not listed before. -/
theorem mem_write_cells {m : Memory} {a : Nat} {v : Byte} {c : Host.Cell} (h : c ∈ (m.write a v).cells) :
    c.1 = a ∨ c ∈ m.cells := by
  unfold Memory.write at h
  split_ifs at h
  · exact .inr (List.mem_filter.1 h).1
  · rcases mem_insertCell h with rfl | h
    · exact .inl rfl
    · exact .inr h

/-- Storing at a listed address of a canonical memory changes no address of the list. -/
theorem addresses_store {m : Memory} (hm : m.rising) {a : Nat} (h : (m.find a).isSome) (v : Byte) :
    (m.store a v).cells.map (·.1) = m.cells.map (·.1) := by
  obtain ⟨cells⟩ := m
  simp only [Memory.rising, Memory.store, Memory.find] at *
  induction cells with
  | nil => simp [findCell] at h
  | cons c rest ih =>
    obtain ⟨k, w⟩ := c
    rw [List.pairwise_cons] at hm
    simp only [insertCell]
    by_cases hk : k = a
    · subst hk; simp
    · have hf : (findCell a rest).isSome := by simpa [findCell, hk] using h
      have hlt : ¬ a < k := by
        intro hlt
        have : ∀ l : List Host.Cell, (∀ d ∈ l, k < d.1) → findCell a l = none := by
          intro l
          induction l with
          | nil => intro _; rfl
          | cons d l ihl =>
            intro hd
            have h1 := hd d (by simp)
            have h2 := ihl fun e he => hd e (by simp [he])
            obtain ⟨j, u⟩ := d
            have : j ≠ a := by simp at h1; omega
            simp [findCell, this, h2]
        rw [this rest hm.1] at hf
        simp at hf
      have hka : ¬ a = k := fun e => hk e.symm
      simp [hlt, hka, ih hm.2 hf]

end Sys2Proof.Machine
end

