-- ==== Sys2Proof/Laws/State.lean ====
section
/-! SUPPORT. What each update of the state leaves and what it changes: one lemma per field per update. -/

namespace Sys2Proof.Machine

/-- The memories after reset are in their canonical forms. -/
theorem State.reset_progMem_wf : State.reset.progMem.wf := by decide

theorem State.reset_dataMem_rising : State.reset.dataMem.rising := by decide

@[simp] theorem State.advance_regs (s : State) (n : Nat) : (s.advance n).regs = s.regs := rfl
@[simp] theorem State.advance_pc (s : State) (n : Nat) : (s.advance n).pc = s.next n := rfl
@[simp] theorem State.advance_flags (s : State) (n : Nat) : (s.advance n).flags = s.flags := rfl
@[simp] theorem State.advance_sp (s : State) (n : Nat) : (s.advance n).sp = s.sp := rfl
@[simp] theorem State.advance_sym (s : State) (n : Nat) : (s.advance n).sym = s.sym := rfl
@[simp] theorem State.advance_mode (s : State) (n : Nat) : (s.advance n).mode = s.mode := rfl
@[simp] theorem State.advance_progMem (s : State) (n : Nat) : (s.advance n).progMem = s.progMem := rfl
@[simp] theorem State.advance_dataMem (s : State) (n : Nat) : (s.advance n).dataMem = s.dataMem := rfl
@[simp] theorem State.advance_cfg (s : State) (n : Nat) : (s.advance n).cfg = s.cfg := rfl
@[simp] theorem State.advance_inputs (s : State) (n : Nat) : (s.advance n).inputs = s.inputs := rfl
@[simp] theorem State.advance_draws (s : State) (n : Nat) : (s.advance n).draws = s.draws := rfl

@[simp] theorem State.clearSym2_regs (s : State) : (s.clearSym2).regs = s.regs := rfl
@[simp] theorem State.clearSym2_pc (s : State) : (s.clearSym2).pc = s.pc := rfl
@[simp] theorem State.clearSym2_flags (s : State) : (s.clearSym2).flags = s.flags := rfl
@[simp] theorem State.clearSym2_sp (s : State) : (s.clearSym2).sp = s.sp := rfl
@[simp] theorem State.clearSym2_sym (s : State) : (s.clearSym2).sym = s.sym &&& 0xFB#8 := rfl
@[simp] theorem State.clearSym2_mode (s : State) : (s.clearSym2).mode = s.mode := rfl
@[simp] theorem State.clearSym2_progMem (s : State) : (s.clearSym2).progMem = s.progMem := rfl
@[simp] theorem State.clearSym2_dataMem (s : State) : (s.clearSym2).dataMem = s.dataMem := rfl
@[simp] theorem State.clearSym2_cfg (s : State) : (s.clearSym2).cfg = s.cfg := rfl
@[simp] theorem State.clearSym2_inputs (s : State) : (s.clearSym2).inputs = s.inputs := rfl
@[simp] theorem State.clearSym2_draws (s : State) : (s.clearSym2).draws = s.draws := rfl

@[simp] theorem State.setSym2_regs (s : State) : (s.setSym2).regs = s.regs := rfl
@[simp] theorem State.setSym2_pc (s : State) : (s.setSym2).pc = s.pc := rfl
@[simp] theorem State.setSym2_flags (s : State) : (s.setSym2).flags = s.flags := rfl
@[simp] theorem State.setSym2_sp (s : State) : (s.setSym2).sp = s.sp := rfl
@[simp] theorem State.setSym2_sym (s : State) : (s.setSym2).sym = s.sym ||| 0x04#8 := rfl
@[simp] theorem State.setSym2_mode (s : State) : (s.setSym2).mode = s.mode := rfl
@[simp] theorem State.setSym2_progMem (s : State) : (s.setSym2).progMem = s.progMem := rfl
@[simp] theorem State.setSym2_dataMem (s : State) : (s.setSym2).dataMem = s.dataMem := rfl
@[simp] theorem State.setSym2_cfg (s : State) : (s.setSym2).cfg = s.cfg := rfl
@[simp] theorem State.setSym2_inputs (s : State) : (s.setSym2).inputs = s.inputs := rfl
@[simp] theorem State.setSym2_draws (s : State) : (s.setSym2).draws = s.draws := rfl

@[simp] theorem State.dropInput_regs (s : State) : (s.dropInput).regs = s.regs := rfl
@[simp] theorem State.dropInput_pc (s : State) : (s.dropInput).pc = s.pc := rfl
@[simp] theorem State.dropInput_flags (s : State) : (s.dropInput).flags = s.flags := rfl
@[simp] theorem State.dropInput_sp (s : State) : (s.dropInput).sp = s.sp := rfl
@[simp] theorem State.dropInput_sym (s : State) : (s.dropInput).sym = s.sym := rfl
@[simp] theorem State.dropInput_mode (s : State) : (s.dropInput).mode = s.mode := rfl
@[simp] theorem State.dropInput_progMem (s : State) : (s.dropInput).progMem = s.progMem := rfl
@[simp] theorem State.dropInput_dataMem (s : State) : (s.dropInput).dataMem = s.dataMem := rfl
@[simp] theorem State.dropInput_cfg (s : State) : (s.dropInput).cfg = s.cfg := rfl
@[simp] theorem State.dropInput_inputs (s : State) : (s.dropInput).inputs = s.inputs.tail := rfl
@[simp] theorem State.dropInput_draws (s : State) : (s.dropInput).draws = s.draws := rfl

@[simp] theorem State.afterRead_regs (s : State) (a : RegAddr) : (s.afterRead a).regs = s.regs := by unfold State.afterRead; split <;> rfl
@[simp] theorem State.afterRead_pc (s : State) (a : RegAddr) : (s.afterRead a).pc = s.pc := by unfold State.afterRead; split <;> rfl
@[simp] theorem State.afterRead_flags (s : State) (a : RegAddr) : (s.afterRead a).flags = s.flags := by unfold State.afterRead; split <;> rfl
@[simp] theorem State.afterRead_sp (s : State) (a : RegAddr) : (s.afterRead a).sp = s.sp := by unfold State.afterRead; split <;> rfl
@[simp] theorem State.afterRead_sym (s : State) (a : RegAddr) : (s.afterRead a).sym = s.sym := by unfold State.afterRead; split <;> rfl
@[simp] theorem State.afterRead_mode (s : State) (a : RegAddr) : (s.afterRead a).mode = s.mode := by unfold State.afterRead; split <;> rfl
@[simp] theorem State.afterRead_progMem (s : State) (a : RegAddr) : (s.afterRead a).progMem = s.progMem := by unfold State.afterRead; split <;> rfl
@[simp] theorem State.afterRead_dataMem (s : State) (a : RegAddr) : (s.afterRead a).dataMem = s.dataMem := by unfold State.afterRead; split <;> rfl
@[simp] theorem State.afterRead_cfg (s : State) (a : RegAddr) : (s.afterRead a).cfg = s.cfg := by unfold State.afterRead; split <;> rfl
@[simp] theorem State.afterRead_inputs (s : State) (a : RegAddr) : (s.afterRead a).inputs = s.inputs := by unfold State.afterRead; split <;> rfl

@[simp] theorem State.put_pc (s : State) (a : RegAddr) (v : Byte) : (s.put a v).pc = s.pc := by unfold State.put; split_ifs <;> rfl
@[simp] theorem State.put_mode (s : State) (a : RegAddr) (v : Byte) : (s.put a v).mode = s.mode := by unfold State.put; split_ifs <;> rfl
@[simp] theorem State.put_progMem (s : State) (a : RegAddr) (v : Byte) : (s.put a v).progMem = s.progMem := by unfold State.put; split_ifs <;> rfl
@[simp] theorem State.put_dataMem (s : State) (a : RegAddr) (v : Byte) : (s.put a v).dataMem = s.dataMem := by unfold State.put; split_ifs <;> rfl
@[simp] theorem State.put_cfg (s : State) (a : RegAddr) (v : Byte) : (s.put a v).cfg = s.cfg := by unfold State.put; split_ifs <;> rfl
@[simp] theorem State.put_inputs (s : State) (a : RegAddr) (v : Byte) : (s.put a v).inputs = s.inputs := by unfold State.put; split_ifs <;> rfl
@[simp] theorem State.put_draws (s : State) (a : RegAddr) (v : Byte) : (s.put a v).draws = s.draws := by unfold State.put; split_ifs <;> rfl

theorem State.put_flags (s : State) (a : RegAddr) (v : Byte) :
    (s.put a v).flags = if a = Config.flagsAddr then Flags.ofByte v else s.flags := by
  unfold State.put; split_ifs <;> rfl

theorem State.put_sp (s : State) (a : RegAddr) (v : Byte) :
    (s.put a v).sp = if a = Config.spAddr then v else s.sp := by
  by_cases h : a = Config.spAddr
  · subst h; rfl
  · unfold State.put; split_ifs <;> rfl

theorem State.put_sym (s : State) (a : RegAddr) (v : Byte) :
    (s.put a v).sym
      = if a ≠ Config.flagsAddr ∧ a ≠ Config.spAddr ∧ a = s.cfg.symAddr then v else s.sym := by
  unfold State.put; split_ifs <;> first | rfl | tauto

end Sys2Proof.Machine
end

