-- ==== Sys2Proof/Laws/Registers.lean ====
section
/-! SUPPORT. What the register-file operations do, said once: reads, writes, pairs, stack, memory accesses. -/

namespace Sys2Proof.Machine

/-- A read gives the byte at the address and changes nothing but the count of draws. -/
theorem readReg_eq_ok {a : RegAddr} {s t : State} {v : Byte} :
    readReg a s = .ok (v, t) ↔ s.refuses a = false ∧ v = s.get a ∧ t = s.afterRead a := by
  unfold readReg; split_ifs with h <;> simp [h, eq_comm]

theorem readReg_eq_error {a : RegAddr} {s : State} {f : Fault} :
    readReg a s = .error f ↔ s.refuses a = true ∧ f = .unmodelledRegister a := by
  unfold readReg; split_ifs with h <;> simp [h, eq_comm]

/-- A write puts the byte at an address that is not refused. -/
theorem writeReg_eq_ok {a : RegAddr} {s t : State} {v : Byte} :
    writeReg a v s = .ok t ↔ s.refuses a = false ∧ t = s.put a v := by
  unfold writeReg; split_ifs with h <;> simp [h, eq_comm]

theorem afterRead_eq (s : State) (a : RegAddr) : s.afterRead a = { s with draws := (s.afterRead a).draws } := by
  unfold State.afterRead; split <;> rfl

/-- Nothing but the count of draws differs between two states. -/
def SameButDraws (s t : State) : Prop := t = { s with draws := t.draws }

theorem SameButDraws.refl (s : State) : SameButDraws s s := rfl

theorem SameButDraws.trans {s t u : State} (h : SameButDraws s t) (k : SameButDraws t u) : SameButDraws s u := by
  unfold SameButDraws at *; rw [k, h]

theorem SameButDraws.fields {s t : State} (h : SameButDraws s t) :
    t.regs = s.regs ∧ t.pc = s.pc ∧ t.flags = s.flags ∧ t.sp = s.sp ∧ t.sym = s.sym ∧ t.mode = s.mode ∧
    t.progMem = s.progMem ∧ t.dataMem = s.dataMem ∧ t.cfg = s.cfg ∧ t.inputs = s.inputs := by
  unfold SameButDraws at h; rw [h]; simp

theorem readReg_sameButDraws {a : RegAddr} {s t : State} {v : Byte} (h : readReg a s = .ok (v, t)) :
    SameButDraws s t := by
  rw [(readReg_eq_ok.1 h).2.2]; exact afterRead_eq s a

/-- Off FLAGS, a read changes nothing at all. -/
theorem afterRead_of_ne {s : State} {a : RegAddr} (h : a ≠ Config.flagsAddr) : s.afterRead a = s := by
  simp [State.afterRead, h]

theorem SameButDraws.refuses {s t : State} (h : SameButDraws s t) (a : RegAddr) : t.refuses a = s.refuses a := by
  unfold SameButDraws at h; rw [h]; rfl

theorem SameButDraws.wreg {s t : State} (h : SameButDraws s t) (n : WReg) : t.wreg n = s.wreg n := by
  unfold SameButDraws at h; rw [h]; rfl

theorem SameButDraws.get {s t : State} (h : SameButDraws s t) {a : RegAddr} (ha : a ≠ Config.flagsAddr) :
    t.get a = s.get a := by
  unfold SameButDraws at h; rw [h]; simp [State.get, ha]

@[simp] theorem refuses_put (s : State) (a b : RegAddr) (v : Byte) : (s.put a v).refuses b = s.refuses b := by
  simp [State.refuses]

@[simp] theorem refuses_advance (s : State) (n : Nat) (b : RegAddr) : (s.advance n).refuses b = s.refuses b := rfl

@[simp] theorem wreg_put (s : State) (a : RegAddr) (v : Byte) (n : WReg) : (s.put a v).wreg n = s.wreg n := by
  simp [State.wreg]

/-- FLAGS and SP are never refused. -/
@[simp] theorem refuses_flags (s : State) : s.refuses Config.flagsAddr = false := by simp [State.refuses]

@[simp] theorem refuses_sp (s : State) : s.refuses Config.spAddr = false := by simp [State.refuses]

@[simp] theorem refuses_sym (s : State) : s.refuses s.cfg.symAddr = false := by simp [State.refuses]

/-- A read after a write to the same address gives the value written. -/
theorem get_put_self {s : State} {a : RegAddr} (h : a ≠ Config.flagsAddr) (v : Byte) : (s.put a v).get a = v := by
  unfold State.get State.put; split_ifs <;> simp_all

/-- A write leaves every other address alone. -/
theorem get_put_of_ne {s : State} {a b : RegAddr} (hb : b ≠ Config.flagsAddr) (h : b ≠ a) (v : Byte) :
    (s.put a v).get b = s.get b := by
  have hn : a.toNat ≠ b.toNat := fun e => h (BitVec.eq_of_toNat_eq e.symm)
  unfold State.get State.put; split_ifs <;> simp_all

@[simp] theorem get_advance (s : State) (n : Nat) (a : RegAddr) : (s.advance n).get a = s.get a := rfl

@[simp] theorem nibble_ofByte_append (f : Flags) (low : BitVec 4) :
    Flags.ofByte (f.nibble ++ low) = f := by
  obtain ⟨c, z, s, v⟩ := f
  revert low
  cases c <;> cases z <;> cases s <;> cases v <;> decide

/-- FLAGS read and written back is unchanged, whatever the low nibble reads as. -/
theorem ofByte_get_flags (s : State) : Flags.ofByte (s.get Config.flagsAddr) = s.flags := by
  simp [State.get]

/-- A pair read gives both bytes, high first, and changes nothing but the count of draws. -/
theorem readPair_eq_ok {a : RegAddr} {s t : State} {w : Word} :
    readPair a s = .ok (w, t) ↔ s.refuses a = false ∧ s.refuses (a + 1) = false ∧
      w = ofBytes (s.get a) ((s.afterRead a).get (a + 1)) ∧ t = (s.afterRead a).afterRead (a + 1) := by
  have hr : (s.afterRead a).refuses (a + 1) = s.refuses (a + 1) := SameButDraws.refuses (afterRead_eq s a) _
  unfold readPair
  constructor
  · intro h
    obtain ⟨⟨x, s1⟩, h1, h⟩ := bind_eq_ok.1 h
    obtain ⟨⟨y, s2⟩, h2, h⟩ := bind_eq_ok.1 h
    obtain ⟨g1, rfl, rfl⟩ := readReg_eq_ok.1 h1
    obtain ⟨g2, rfl, rfl⟩ := readReg_eq_ok.1 h2
    simp only [pure_eq_ok, Except.ok.injEq, Prod.mk.injEq] at h
    exact ⟨g1, hr ▸ g2, h.1.symm, h.2.symm⟩
  · rintro ⟨g1, g2, rfl, rfl⟩
    simp only [readReg, g1, g2, hr, Bool.false_eq_true, if_false, ok_bind, pure_eq_ok]

theorem readPair_sameButDraws {a : RegAddr} {s t : State} {w : Word} (h : readPair a s = .ok (w, t)) :
    SameButDraws s t := by
  rw [(readPair_eq_ok.1 h).2.2.2]
  exact (show SameButDraws s (s.afterRead a) from afterRead_eq s a).trans (afterRead_eq _ _)

/-- A push moves SP down and puts the byte at the new SP. -/
theorem push_eq_ok {v : Byte} {s t : State} :
    push v s = .ok t ↔ s.refuses (s.sp - 1) = false ∧ t = State.put { s with sp := s.sp - 1 } (s.sp - 1) v := by
  unfold push; rw [writeReg_eq_ok]; rfl

/-- A pop reads the byte at SP and moves SP up. -/
theorem pop_eq_ok {v : Byte} {s t : State} :
    pop s = .ok (v, t) ↔ s.refuses s.sp = false ∧ v = s.get s.sp ∧
      t = { s.afterRead s.sp with sp := s.sp + 1 } := by
  unfold pop
  constructor
  · intro h
    obtain ⟨⟨x, s1⟩, h1, h⟩ := bind_eq_ok.1 h
    obtain ⟨g1, rfl, rfl⟩ := readReg_eq_ok.1 h1
    simp only [pure_eq_ok, Except.ok.injEq, Prod.mk.injEq] at h
    exact ⟨g1, h.1.symm, by simpa using h.2.symm⟩
  · rintro ⟨g, rfl, rfl⟩
    simp [readReg, g]

/-- A memory access inside program memory. -/
theorem memRead_program {a : Int} {s : State} (h : 0 ≤ a ∧ a < s.cfg.progSize) :
    memRead .program a s = .ok (s.progMem.read a.toNat) := by simp [memRead, h]

theorem memRead_data {a : Int} {s : State} {v : Byte} (h0 : 0 ≤ a) (h : s.dataMem.find a.toNat = some v) :
    memRead .data a s = .ok v := by simp [memRead, h0, h]

theorem memRead_program_outside {a : Int} {s : State} (h : a < 0 ∨ s.cfg.progSize ≤ a) :
    memRead .program a s = .error (.addressOutOfRange .program a) := by
  simp only [memRead]; rw [if_neg (by omega)]

theorem memRead_data_outside {a : Int} {s : State} (h : a < 0 ∨ s.dataMem.find a.toNat = none) :
    memRead .data a s = .error (.addressOutOfRange .data a) := by
  simp only [memRead]; split_ifs with h0
  · rw [h.resolve_left (by omega)]
  · rfl

theorem memWrite_program_outside {a : Int} {v : Byte} {s : State} (hw : s.cfg.progMemWritable = true)
    (h : a < 0 ∨ s.cfg.progSize ≤ a) : memWrite .program a v s = .error (.addressOutOfRange .program a) := by
  simp only [memWrite, hw, if_true]; rw [if_neg (by omega)]

theorem memWrite_data_outside {a : Int} {v : Byte} {s : State} (h : a < 0 ∨ s.dataMem.find a.toNat = none) :
    memWrite .data a v s = .error (.addressOutOfRange .data a) := by
  simp only [memWrite]; rw [if_neg]
  rintro ⟨h0, h1⟩
  rw [h.resolve_left (by omega)] at h1
  simp at h1

/-- A store to memory either writes program memory of a part that supports it, or a fitted data-memory cell; nothing
else of the state changes. -/
theorem memWrite_eq_ok {space : Space} {a : Int} {v : Byte} {s t : State} (h : memWrite space a v s = .ok t) :
    (space = .program ∧ s.cfg.progMemWritable = true ∧ 0 ≤ a ∧ a < s.cfg.progSize ∧
      t = { s with progMem := s.progMem.write a.toNat v }) ∨
    (space = .data ∧ 0 ≤ a ∧ (s.dataMem.find a.toNat).isSome ∧
      t = { s with dataMem := s.dataMem.store a.toNat v }) := by
  cases space with
  | program =>
    simp only [memWrite] at h
    split_ifs at h with h1 h2
    exact .inl ⟨rfl, h1, h2.1, h2.2, by simpa using h.symm⟩
  | data =>
    simp only [memWrite] at h
    split_ifs at h with h1
    exact .inr ⟨rfl, h1.1, h1.2, by simpa using h.symm⟩

end Sys2Proof.Machine
end

