-- ==== Sys2Proof/Laws/Operands.lean ====
section
/-! SUPPORT. Evaluating an operand changes nothing but the count of draws. -/

namespace Sys2Proof.Machine

theorem Loc.resolve_sameButDraws {l : Loc} {s t : State} {a : RegAddr} (h : l.resolve s = .ok (a, t)) :
    SameButDraws s t := by
  cases l with
  | w n => simp only [Loc.resolve, Except.ok.injEq, Prod.mk.injEq] at h; rw [← h.2]; exact .refl s
  | iw n => exact readReg_sameButDraws h
  | r b => simp only [Loc.resolve, Except.ok.injEq, Prod.mk.injEq] at h; rw [← h.2]; exact .refl s
  | ir b => exact readReg_sameButDraws h
  | x off n =>
    obtain ⟨⟨i, s1⟩, h1, h⟩ := bind_eq_ok.1 h
    simp only [pure_eq_ok, Except.ok.injEq, Prod.mk.injEq] at h
    rw [← h.2]; exact readReg_sameButDraws h1

theorem Loc.value_sameButDraws {l : Loc} {s t : State} {v : Byte} (h : l.value s = .ok (v, t)) :
    SameButDraws s t := by
  obtain ⟨⟨a, s1⟩, h1, h⟩ := bind_eq_ok.1 h
  exact (Loc.resolve_sameButDraws h1).trans (readReg_sameButDraws h)

theorem Src.value_sameButDraws {o : Src} {s t : State} {v : Byte} (h : o.value s = .ok (v, t)) :
    SameButDraws s t := by
  cases o with
  | loc l => exact Loc.value_sameButDraws h
  | im w => simp only [Src.value, Except.ok.injEq, Prod.mk.injEq] at h; rw [← h.2]; exact .refl s

theorem MemAddr.ea_sameButDraws {m : MemAddr} {s t : State} {a : Int} (h : m.ea s = .ok (a, t)) :
    SameButDraws s t := by
  cases m with
  | da w => simp only [MemAddr.ea, Except.ok.injEq, Prod.mk.injEq] at h; rw [← h.2]; exact .refl s
  | _ =>
    obtain ⟨⟨w, s1⟩, h1, h⟩ := bind_eq_ok.1 h
    simp only [pure_eq_ok, Except.ok.injEq, Prod.mk.injEq] at h
    rw [← h.2]; exact readPair_sameButDraws h1

end Sys2Proof.Machine
end

