-- ==== Sys2Proof/Laws/Forms.lean ====
section
/-! SUPPORT. For each shared shape of an instruction, everything it did if it answers a next state. -/

namespace Sys2Proof.Machine

theorem aluWrite_ok {f : Flags → Byte → Byte → Byte × Flags} {dst : Loc} {src : Src} {n : Nat} {s t : State}
    (h : aluWrite f dst src n s = .ok t) :
    ∃ d s1 a s2 b s3, dst.resolve s = .ok (d, s1) ∧ d ≠ Config.flagsAddr ∧ readReg d s1 = .ok (a, s2) ∧
      src.value s2 = .ok (b, s3) ∧
      t = { s3.put d (f s3.flags a b).1 with flags := (f s3.flags a b).2 }.advance n := by
  obtain ⟨⟨d, s1⟩, h1, h⟩ := bind_eq_ok.1 h
  dsimp only at h
  split_ifs at h with hd
  obtain ⟨⟨a, s2⟩, h2, h⟩ := bind_eq_ok.1 h
  obtain ⟨⟨b, s3⟩, h3, h⟩ := bind_eq_ok.1 h
  obtain ⟨s4, h4, h⟩ := bind_eq_ok.1 h
  obtain ⟨-, rfl⟩ := writeReg_eq_ok.1 h4
  exact ⟨d, s1, a, s2, b, s3, h1, hd, h2, h3, by simpa using h.symm⟩

theorem aluTest_ok {f : Flags → Byte → Byte → Byte × Flags} {dst : Loc} {src : Src} {n : Nat} {s t : State}
    (h : aluTest f dst src n s = .ok t) :
    ∃ a s1 b s2, dst.value s = .ok (a, s1) ∧ src.value s1 = .ok (b, s2) ∧
      t = { s2 with flags := (f s2.flags a b).2 }.advance n := by
  obtain ⟨⟨a, s1⟩, h1, h⟩ := bind_eq_ok.1 h
  obtain ⟨⟨b, s2⟩, h2, h⟩ := bind_eq_ok.1 h
  exact ⟨a, s1, b, s2, h1, h2, by simpa using h.symm⟩

theorem aluUnary_ok {f : Flags → Byte → Byte × Flags} {dst : Loc} {n : Nat} {s t : State}
    (h : aluUnary f dst n s = .ok t) :
    ∃ d s1 a s2, dst.resolve s = .ok (d, s1) ∧ d ≠ Config.flagsAddr ∧ readReg d s1 = .ok (a, s2) ∧
      t = { s2.put d (f s2.flags a).1 with flags := (f s2.flags a).2 }.advance n := by
  obtain ⟨⟨d, s1⟩, h1, h⟩ := bind_eq_ok.1 h
  dsimp only at h
  split_ifs at h with hd
  obtain ⟨⟨a, s2⟩, h2, h⟩ := bind_eq_ok.1 h
  obtain ⟨s3, h3, h⟩ := bind_eq_ok.1 h
  obtain ⟨-, rfl⟩ := writeReg_eq_ok.1 h3
  exact ⟨d, s1, a, s2, h1, hd, h2, by simpa using h.symm⟩

theorem loadTo_ok {dst : Loc} {src : Src} {n : Nat} {s t : State} (h : loadTo dst src n s = .ok t) :
    ∃ d s1 v s2, dst.resolve s = .ok (d, s1) ∧ src.value s1 = .ok (v, s2) ∧ s.refuses d = false ∧
      t = (s2.put d v).advance n := by
  obtain ⟨⟨d, s1⟩, h1, h⟩ := bind_eq_ok.1 h
  obtain ⟨⟨v, s2⟩, h2, h⟩ := bind_eq_ok.1 h
  obtain ⟨s3, h3, h⟩ := bind_eq_ok.1 h
  obtain ⟨hr, rfl⟩ := writeReg_eq_ok.1 h3
  rw [((Loc.resolve_sameButDraws h1).trans (Src.value_sameButDraws h2)).refuses] at hr
  exact ⟨d, s1, v, s2, h1, h2, hr, by simpa using h.symm⟩

theorem memLoad_ok {space : Space} {dst : WReg} {m : MemAddr} {n : Nat} {s t : State}
    (h : memLoad space dst m n s = .ok t) :
    ∃ ea s1 v, m.ea s = .ok (ea, s1) ∧ memRead space ea s1 = .ok v ∧ s.refuses (s.wreg dst) = false ∧
      t = (s1.put (s.wreg dst) v).advance n := by
  obtain ⟨⟨ea, s1⟩, h1, h⟩ := bind_eq_ok.1 h
  obtain ⟨v, h2, h⟩ := bind_eq_ok.1 h
  obtain ⟨s2, h3, h⟩ := bind_eq_ok.1 h
  obtain ⟨hr, rfl⟩ := writeReg_eq_ok.1 h3
  have e := MemAddr.ea_sameButDraws h1
  rw [e.wreg, e.refuses] at hr
  refine ⟨ea, s1, v, h1, h2, hr, ?_⟩
  rw [← e.wreg]; simpa using h.symm

theorem memStore_ok {space : Space} {m : MemAddr} {src : WReg} {n : Nat} {s t : State}
    (h : memStore space m src n s = .ok t) :
    ∃ ea s1 v s2 s3, m.ea s = .ok (ea, s1) ∧ readReg (s.wreg src) s1 = .ok (v, s2) ∧
      memWrite space ea v s2 = .ok s3 ∧ t = s3.advance n := by
  obtain ⟨⟨ea, s1⟩, h1, h⟩ := bind_eq_ok.1 h
  obtain ⟨⟨v, s2⟩, h2, h⟩ := bind_eq_ok.1 h
  obtain ⟨s3, h3, h⟩ := bind_eq_ok.1 h
  refine ⟨ea, s1, v, s2, s3, h1, ?_, h3, by simpa using h.symm⟩
  rw [← (MemAddr.ea_sameButDraws h1).wreg]; exact h2

theorem memLoadStep_ok {space : Space} {delta : Word} {dst : WReg} {p : PairNo} {s t : State}
    (h : memLoadStep space delta dst p s = .ok t) :
    pairOfField dst ≠ p ∧ ∃ w s1 v, readPair (s.wpair p) s = .ok (w, s1) ∧ memRead space w.toNat s1 = .ok v ∧
      s.refuses (s.wreg dst) = false ∧ t = (((s1.put (s.wreg dst) v).put (s.wpair p) (hiByte (w + delta))).put (s.wpair p + 1)
        (loByte (w + delta))).advance 2 := by
  unfold memLoadStep at h
  split_ifs at h with hp
  refine ⟨hp, ?_⟩
  obtain ⟨⟨w, s1⟩, h1, h⟩ := bind_eq_ok.1 h
  obtain ⟨v, h2, h⟩ := bind_eq_ok.1 h
  obtain ⟨s2, h3, h⟩ := bind_eq_ok.1 h
  obtain ⟨s3, h4, h⟩ := bind_eq_ok.1 h
  obtain ⟨s4, h5, h6⟩ := bind_eq_ok.1 h4
  have hw := fun n => (readPair_sameButDraws h1).wreg n
  obtain ⟨hr, rfl⟩ := writeReg_eq_ok.1 h3
  obtain ⟨-, rfl⟩ := writeReg_eq_ok.1 h5
  obtain ⟨-, rfl⟩ := writeReg_eq_ok.1 h6
  rw [hw, (readPair_sameButDraws h1).refuses] at hr
  refine ⟨w, s1, v, h1, h2, hr, ?_⟩
  simpa [State.wpair, hw] using h.symm

theorem popTo_ok {dst : Loc} {s t : State} (h : popTo dst s = .ok t) :
    ∃ d s1 v s2, dst.resolve s = .ok (d, s1) ∧ d ≠ Config.spAddr ∧ dst.pointer ≠ some Config.spAddr ∧
      pop s1 = .ok (v, s2) ∧ s2.refuses d = false ∧ t = (s2.put d v).advance 2 := by
  obtain ⟨⟨d, s1⟩, h1, h⟩ := bind_eq_ok.1 h
  dsimp only at h
  split_ifs at h with hd
  obtain ⟨⟨v, s2⟩, h2, h⟩ := bind_eq_ok.1 h
  obtain ⟨s3, h3, h⟩ := bind_eq_ok.1 h
  obtain ⟨hr, rfl⟩ := writeReg_eq_ok.1 h3
  exact ⟨d, s1, v, s2, h1, fun e => hd (.inl e), fun e => hd (.inr e), h2, hr, by simpa using h.symm⟩

theorem pushFrom_ok {src : Loc} {s t : State} (h : pushFrom src s = .ok t) :
    ∃ a s1 v s2 s3, src.resolve s = .ok (a, s1) ∧ a ≠ Config.spAddr ∧ src.pointer ≠ some Config.spAddr ∧
      readReg a s1 = .ok (v, s2) ∧ push v s2 = .ok s3 ∧ t = s3.advance 2 := by
  obtain ⟨⟨a, s1⟩, h1, h⟩ := bind_eq_ok.1 h
  dsimp only at h
  split_ifs at h with hd
  obtain ⟨⟨v, s2⟩, h2, h⟩ := bind_eq_ok.1 h
  obtain ⟨s3, h3, h⟩ := bind_eq_ok.1 h
  exact ⟨a, s1, v, s2, s3, h1, fun e => hd (.inl e), fun e => hd (.inr e), h2, h3, by simpa using h.symm⟩

theorem pairTarget_ok {a : RegAddr} {s t : State} {w : Word} (h : pairTarget a s = .ok (w, t)) :
    a.getLsbD 0 = false ∧ readPair a s = .ok (w, t) := by
  unfold pairTarget at h
  split_ifs at h with ha
  exact ⟨by simpa using ha, h⟩

theorem pushWord_ok {w : Word} {s t : State} (h : pushWord w s = .ok t) :
    ∃ s1, push (loByte w) s = .ok s1 ∧ push (hiByte w) s1 = .ok t := bind_eq_ok.1 h

theorem callTo_ok {target : Word} {n : Nat} {s t : State} (h : callTo target n s = .ok t) :
    ∃ s1 s2, push (loByte (s.next n)) s = .ok s1 ∧ push (hiByte (s.next n)) s1 = .ok s2 ∧
      t = { s2 with pc := target } := by
  obtain ⟨s2, h2, h⟩ := bind_eq_ok.1 h
  obtain ⟨s1, h1, h2⟩ := pushWord_ok h2
  exact ⟨s1, s2, h1, h2, by simpa using h.symm⟩

theorem callPair_ok {a : RegAddr} {s t : State} (h : callPair a s = .ok t) :
    ∃ target s1, a.getLsbD 0 = false ∧ readPair a s = .ok (target, s1) ∧ callPairOverlaps a s.sp = false ∧
      callTo target 2 s1 = .ok t := by
  obtain ⟨⟨target, s1⟩, h1, h⟩ := bind_eq_ok.1 h
  obtain ⟨ha, h1⟩ := pairTarget_ok h1
  dsimp only at h
  split_ifs at h with ho
  rw [(readPair_sameButDraws h1).fields.2.2.2.1] at ho
  exact ⟨target, s1, ha, h1, by simpa using ho, h⟩

theorem jumpPair_ok {a : RegAddr} {s t : State} (h : jumpPair a s = .ok t) :
    ∃ target s1, a.getLsbD 0 = false ∧ readPair a s = .ok (target, s1) ∧ t = { s1 with pc := target } := by
  obtain ⟨⟨target, s1⟩, h1, h⟩ := bind_eq_ok.1 h
  obtain ⟨ha, h1⟩ := pairTarget_ok h1
  exact ⟨target, s1, ha, h1, by simpa using h.symm⟩

theorem popWord_ok {w : Word} {s t : State} (h : popWord s = .ok (w, t)) :
    ∃ hi s1 lo, pop s = .ok (hi, s1) ∧ pop s1 = .ok (lo, t) ∧ w = ofBytes hi lo := by
  obtain ⟨⟨hi, s1⟩, h1, h⟩ := bind_eq_ok.1 h
  obtain ⟨⟨lo, s2⟩, h2, h⟩ := bind_eq_ok.1 h
  simp only [pure_eq_ok, Except.ok.injEq, Prod.mk.injEq] at h
  exact ⟨hi, s1, lo, h1, h.2 ▸ h2, h.1.symm⟩

theorem returnFromCall_ok {s t : State} (h : returnFromCall s = .ok t) :
    ∃ target s1, popWord s = .ok (target, s1) ∧ t = { s1 with pc := target } := by
  obtain ⟨⟨target, s1⟩, h1, h⟩ := bind_eq_ok.1 h
  exact ⟨target, s1, h1, by simpa using h.symm⟩

theorem interruptReturn_ok {s t : State} (h : interruptReturn s = .ok t) :
    ∃ f s1 target s2, pop s = .ok (f, s1) ∧ popWord { s1 with flags := Flags.ofByte f } = .ok (target, s2) ∧
      t = { s2.setSym2 with pc := target } := by
  obtain ⟨⟨f, s1⟩, h1, h⟩ := bind_eq_ok.1 h
  obtain ⟨⟨target, s2⟩, h2, h⟩ := bind_eq_ok.1 h
  exact ⟨f, s1, target, s2, h1, h2, by simpa using h.symm⟩

theorem interruptEntry_ok {s t : State} (h : interruptEntry s = .ok t) :
    ∃ s1 f s2 s3 target, pushWord s.pc s = .ok s1 ∧ readReg Config.flagsAddr s1 = .ok (f, s2) ∧
      push f s2 = .ok s3 ∧ readVector s3.clearSym2 = .ok target ∧ t = { s3.clearSym2 with pc := target } := by
  obtain ⟨s1, h1, h⟩ := bind_eq_ok.1 h
  obtain ⟨⟨f, s2⟩, h2, h⟩ := bind_eq_ok.1 h
  obtain ⟨s3, h3, h⟩ := bind_eq_ok.1 h
  obtain ⟨target, h4, h⟩ := bind_eq_ok.1 h
  exact ⟨s1, f, s2, s3, target, h1, h2, h3, h4, by simpa using h.symm⟩

end Sys2Proof.Machine
end

