-- ==== Sys2Proof/Laws/Frame.lean ====
section
/-! SUPPORT. Frames of the operations and of the shared shapes: which register-file locations each may write, and what it
leaves as it was. -/

namespace Sys2Proof.Machine

/-- From s to t at most the register-file locations in W are written (FLAGS apart), and no parameter, platform answer or
unused place of a register. -/
structure Keeps (W : List RegAddr) (s t : State) : Prop where
  get : ∀ a, a ≠ Config.flagsAddr → a ∉ W → t.get a = s.get a
  cfg : t.cfg = s.cfg
  inputs : t.inputs = s.inputs
  sp : Config.spAddr ∉ W → t.sp = s.sp
  sym : s.cfg.symAddr ∉ W → t.sym = s.sym
  unused : ∀ a : RegAddr, ¬ s.isPlain a → t.regs[a.toNat]'a.isLt = s.regs[a.toNat]'a.isLt

/-- The run mode and both memories are as they were. -/
structure SameMemory (s t : State) : Prop where
  mode : t.mode = s.mode
  progMem : t.progMem = s.progMem
  dataMem : t.dataMem = s.dataMem

theorem isPlain_congr {s t : State} (h : t.cfg = s.cfg) (a : RegAddr) : t.isPlain a ↔ s.isPlain a := by
  simp [State.isPlain, State.refuses, h]

theorem SameMemory.trans {s t u : State} (h : SameMemory s t) (k : SameMemory t u) : SameMemory s u :=
  ⟨k.mode.trans h.mode, k.progMem.trans h.progMem, k.dataMem.trans h.dataMem⟩

theorem SameButDraws.sameMemory {s t : State} (h : SameButDraws s t) : SameMemory s t :=
  ⟨h.fields.2.2.2.2.2.1, h.fields.2.2.2.2.2.2.1, h.fields.2.2.2.2.2.2.2.1⟩

theorem SameMemory.put (s : State) (a : RegAddr) (v : Byte) : SameMemory s (s.put a v) := ⟨by simp, by simp, by simp⟩

/-! ### Keeps along the parts of a step -/

theorem Keeps.refl (s : State) : Keeps [] s s := by constructor <;> intros <;> rfl

theorem Keeps.trans {V W : List RegAddr} {s t u : State} (h : Keeps V s t) (k : Keeps W t u) : Keeps (V ++ W) s u where
  get a ha hb := by simp only [List.mem_append, not_or] at hb; rw [k.get a ha hb.2, h.get a ha hb.1]
  cfg := k.cfg.trans h.cfg
  inputs := k.inputs.trans h.inputs
  sp hn := by simp only [List.mem_append, not_or] at hn; rw [k.sp hn.2, h.sp hn.1]
  sym hn := by simp only [List.mem_append, not_or] at hn; rw [k.sym (by rw [h.cfg]; exact hn.2), h.sym hn.1]
  unused a ha := (k.unused a (by rwa [isPlain_congr h.cfg])).trans (h.unused a ha)

theorem Keeps.mono {V W : List RegAddr} {s t : State} (h : Keeps V s t) (hw : ∀ a ∈ V, a ∈ W) : Keeps W s t where
  get a ha hb := h.get a ha fun x => hb (hw _ x)
  cfg := h.cfg
  inputs := h.inputs
  sp x := h.sp fun y => x (hw _ y)
  sym x := h.sym fun y => x (hw _ y)
  unused := h.unused

theorem SameButDraws.keeps {s t : State} (h : SameButDraws s t) : Keeps [] s t := by
  obtain ⟨h1, -, -, h4, h5, -, -, -, h9, h10⟩ := h.fields
  exact ⟨fun a ha _ => h.get ha, h9, h10, fun _ => h4, fun _ => h5, fun a _ => by simp only [h1]⟩

theorem Keeps.put (s : State) {a : RegAddr} (v : Byte) (hr : s.refuses a = false) : Keeps [a] s (s.put a v) where
  get b hb h := get_put_of_ne hb (by simpa using h) v
  cfg := by simp
  inputs := by simp
  sp h := by rw [State.put_sp, if_neg]; simp only [List.mem_singleton] at h; exact fun e => h e.symm
  sym h := by rw [State.put_sym, if_neg]; simp only [List.mem_singleton] at h; exact fun e => h e.2.2.symm
  unused b hb := by
    unfold State.put
    split_ifs with h1 h2 h3 <;> try rfl
    have hne : a.toNat ≠ b.toNat := fun e => hb (BitVec.eq_of_toNat_eq e ▸ ⟨h1, h2, h3, hr⟩)
    exact Vector.getElem_set_ne a.isLt b.isLt hne

theorem Keeps.pc (s : State) (p : Word) : Keeps [] s { s with pc := p } := by constructor <;> intros <;> rfl

theorem Keeps.advance (s : State) (n : Nat) : Keeps [] s (s.advance n) := Keeps.pc s _

theorem Keeps.flags (s : State) (f : Flags) : Keeps [] s { s with flags := f } where
  get a h _ := by simp [State.get, h]
  cfg := rfl
  inputs := rfl
  sp _ := rfl
  sym _ := rfl
  unused _ _ := rfl

theorem Keeps.setSp (s : State) (v : Byte) : Keeps [Config.spAddr] s { s with sp := v } where
  get a _ h := by simp only [List.mem_singleton] at h; simp [State.get, h]
  cfg := rfl
  inputs := rfl
  sp h := by simp at h
  sym _ := rfl
  unused _ _ := rfl

theorem Keeps.setSym (s : State) (v : Byte) : Keeps [s.cfg.symAddr] s { s with sym := v } where
  get a _ h := by simp only [List.mem_singleton] at h; simp [State.get, h]
  cfg := rfl
  inputs := rfl
  sp _ := rfl
  sym h := by simp at h
  unused _ _ := rfl

theorem Keeps.progMem (s : State) (m : Memory) : Keeps [] s { s with progMem := m } := by constructor <;> intros <;> rfl

theorem Keeps.dataMem (s : State) (m : Memory) : Keeps [] s { s with dataMem := m } := by constructor <;> intros <;> rfl

theorem Keeps.mode (s : State) (m : RunMode) : Keeps [] s { s with mode := m } := by constructor <;> intros <;> rfl

/-! ### The stack -/

theorem push_keeps {v : Byte} {s t : State} (h : push v s = .ok t) :
    Keeps [Config.spAddr, s.sp - 1] s t ∧ SameMemory s t ∧ (Config.flagsAddr ≠ s.sp - 1 → t.flags = s.flags) := by
  obtain ⟨hr, rfl⟩ := push_eq_ok.1 h
  refine ⟨(Keeps.setSp s _).trans (Keeps.put _ _ hr), ⟨by simp, by simp, by simp⟩, fun h => ?_⟩
  rw [State.put_flags, if_neg h.symm]

theorem pop_keeps {v : Byte} {s t : State} (h : pop s = .ok (v, t)) :
    Keeps [Config.spAddr] s t ∧ SameMemory s t ∧ t.flags = s.flags ∧ t.sp = s.sp + 1 := by
  obtain ⟨-, -, rfl⟩ := pop_eq_ok.1 h
  have e : SameButDraws s (s.afterRead s.sp) := afterRead_eq _ _
  exact ⟨e.keeps.trans (Keeps.setSp _ _), ⟨by simp, by simp, by simp⟩, by simp, rfl⟩

theorem popWord_keeps {w : Word} {s t : State} (h : popWord s = .ok (w, t)) :
    Keeps [Config.spAddr] s t ∧ SameMemory s t ∧ t.flags = s.flags := by
  obtain ⟨hi, s1, lo, h1, h2, -⟩ := popWord_ok h
  obtain ⟨k1, m1, f1, -⟩ := pop_keeps h1
  obtain ⟨k2, m2, f2, -⟩ := pop_keeps h2
  exact ⟨(k1.trans k2).mono (by simp), m1.trans m2, f2.trans f1⟩

/-! ### The shared shapes -/

theorem aluWrite_keeps {f : Flags → Byte → Byte → Byte × Flags} {dst : Loc} {src : Src} {n : Nat} {s t : State}
    (h : aluWrite f dst src n s = .ok t) :
    Keeps (addressOf dst s) s t ∧ SameMemory s t ∧ ∃ a b, t.flags = (f s.flags a b).2 := by
  obtain ⟨d, s1, a, s2, b, s3, h1, -, h2, h3, rfl⟩ := aluWrite_ok h
  have e23 := (readReg_sameButDraws h2).trans (Src.value_sameButDraws h3)
  have e := (Loc.resolve_sameButDraws h1).trans e23
  have hr : s3.refuses d = false := by rw [e23.refuses]; exact (readReg_eq_ok.1 h2).1
  refine ⟨?_, e.sameMemory.trans ⟨by simp, by simp, by simp⟩, a, b, by simp [e.fields.2.2.1]⟩
  simp only [addressOf, h1]
  exact (((e.keeps.trans (Keeps.put _ _ hr)).trans (Keeps.flags _ _)).trans (Keeps.advance _ _)).mono (by simp)

theorem aluUnary_keeps {f : Flags → Byte → Byte × Flags} {dst : Loc} {n : Nat} {s t : State}
    (h : aluUnary f dst n s = .ok t) :
    Keeps (addressOf dst s) s t ∧ SameMemory s t ∧ ∃ a, t.flags = (f s.flags a).2 := by
  obtain ⟨d, s1, a, s2, h1, -, h2, rfl⟩ := aluUnary_ok h
  have e2 := readReg_sameButDraws h2
  have e := (Loc.resolve_sameButDraws h1).trans e2
  have hr : s2.refuses d = false := by rw [e2.refuses]; exact (readReg_eq_ok.1 h2).1
  refine ⟨?_, e.sameMemory.trans ⟨by simp, by simp, by simp⟩, a, by simp [e.fields.2.2.1]⟩
  simp only [addressOf, h1]
  exact (((e.keeps.trans (Keeps.put _ _ hr)).trans (Keeps.flags _ _)).trans (Keeps.advance _ _)).mono (by simp)

theorem aluTest_keeps {f : Flags → Byte → Byte → Byte × Flags} {dst : Loc} {src : Src} {n : Nat} {s t : State}
    (h : aluTest f dst src n s = .ok t) :
    Keeps [] s t ∧ SameMemory s t ∧ ∃ a b, t.flags = (f s.flags a b).2 := by
  obtain ⟨a, s1, b, s2, h1, h2, rfl⟩ := aluTest_ok h
  have e := (Loc.value_sameButDraws h1).trans (Src.value_sameButDraws h2)
  exact ⟨(e.keeps.trans (Keeps.flags _ _)).trans (Keeps.advance _ _), e.sameMemory.trans ⟨rfl, rfl, rfl⟩, a, b, by simp [e.fields.2.2.1]⟩

theorem loadTo_keeps {dst : Loc} {src : Src} {n : Nat} {s t : State} (h : loadTo dst src n s = .ok t) :
    Keeps (addressOf dst s) s t ∧ SameMemory s t ∧ (Config.flagsAddr ∉ addressOf dst s → t.flags = s.flags) := by
  obtain ⟨d, s1, v, s2, h1, h2, hr, rfl⟩ := loadTo_ok h
  have e := (Loc.resolve_sameButDraws h1).trans (Src.value_sameButDraws h2)
  simp only [addressOf, h1]
  refine ⟨((e.keeps.trans (Keeps.put _ _ (by rwa [e.refuses]))).trans (Keeps.advance _ _)).mono (by simp),
    e.sameMemory.trans ⟨by simp, by simp, by simp⟩, fun h => ?_⟩
  simp only [List.mem_singleton] at h
  rw [State.advance_flags, State.put_flags, if_neg (fun e => h e.symm), e.fields.2.2.1]

theorem memLoad_keeps {space : Space} {dst : WReg} {m : MemAddr} {n : Nat} {s t : State}
    (h : memLoad space dst m n s = .ok t) :
    Keeps [s.wreg dst] s t ∧ SameMemory s t ∧ (Config.flagsAddr ≠ s.wreg dst → t.flags = s.flags) := by
  obtain ⟨ea, s1, v, h1, -, hr, rfl⟩ := memLoad_ok h
  have e := MemAddr.ea_sameButDraws h1
  refine ⟨(e.keeps.trans (Keeps.put _ _ (by rwa [e.refuses]))).trans (Keeps.advance _ _),
    e.sameMemory.trans ⟨by simp, by simp, by simp⟩, fun h => ?_⟩
  rw [State.advance_flags, State.put_flags, if_neg (fun e => h e.symm), e.fields.2.2.1]

theorem memLoadStep_keeps {space : Space} {delta : Word} {dst : WReg} {p : PairNo} {s t : State}
    (h : memLoadStep space delta dst p s = .ok t) :
    Keeps [s.wreg dst, s.wpair p, s.wpair p + 1] s t ∧ SameMemory s t ∧
      (Config.flagsAddr ∉ [s.wreg dst, s.wpair p, s.wpair p + 1] → t.flags = s.flags) := by
  obtain ⟨-, w, s1, v, h1, -, hr, rfl⟩ := memLoadStep_ok h
  have e := readPair_sameButDraws h1
  obtain ⟨r1, r2, -, -⟩ := readPair_eq_ok.1 h1
  refine ⟨?_, e.sameMemory.trans ⟨by simp, by simp, by simp⟩, fun h => ?_⟩
  · exact ((((e.keeps.trans (Keeps.put _ _ (by rwa [e.refuses]))).trans
      (Keeps.put _ _ (by simpa [e.refuses] using r1))).trans
      (Keeps.put _ _ (by simpa [e.refuses] using r2))).trans (Keeps.advance _ _)).mono (by simp)
  · simp only [List.mem_cons, List.not_mem_nil, or_false, not_or] at h
    simp only [State.advance_flags, State.put_flags]
    rw [if_neg (fun e => h.2.2 e.symm), if_neg (fun e => h.2.1 e.symm), if_neg (fun e => h.1 e.symm), e.fields.2.2.1]

/-- A store changes one byte of the memory it names, at the effective address of its operand. -/
theorem memStore_keeps {space : Space} {m : MemAddr} {src : WReg} {n : Nat} {s t : State}
    (h : memStore space m src n s = .ok t) :
    Keeps [] s t ∧ t.mode = s.mode ∧ t.flags = s.flags ∧ ∃ ea s1 v, m.ea s = .ok (ea, s1) ∧ 0 ≤ ea ∧
      ((space = .program ∧ s.cfg.progMemWritable = true ∧ ea < s.cfg.progSize ∧ t.dataMem = s.dataMem ∧
          t.progMem = s.progMem.write ea.toNat v) ∨
        (space = .data ∧ (s.dataMem.find ea.toNat).isSome ∧ t.progMem = s.progMem ∧
          t.dataMem = s.dataMem.store ea.toNat v)) := by
  obtain ⟨ea, s1, v, s2, s3, h1, h2, h3, rfl⟩ := memStore_ok h
  have e := (MemAddr.ea_sameButDraws h1).trans (readReg_sameButDraws h2)
  obtain ⟨-, -, hf, -, -, hm, hp, hd, hc, -⟩ := e.fields
  rcases memWrite_eq_ok h3 with ⟨rfl, k1, k2, k3, rfl⟩ | ⟨rfl, k1, k2, rfl⟩
  · exact ⟨(e.keeps.trans (Keeps.progMem _ _)).trans (Keeps.advance _ _), by simp [hm], by simp [hf], ea, s1, v, h1, k2,
      .inl ⟨rfl, hc ▸ k1, hc ▸ k3, by simp [hd], by simp [hp]⟩⟩
  · exact ⟨(e.keeps.trans (Keeps.dataMem _ _)).trans (Keeps.advance _ _), by simp [hm], by simp [hf], ea, s1, v, h1, k1,
      .inr ⟨rfl, hd ▸ k2, by simp [hp], by simp [hd]⟩⟩

theorem popTo_keeps {dst : Loc} {s t : State} (h : popTo dst s = .ok t) :
    Keeps (Config.spAddr :: addressOf dst s) s t ∧ SameMemory s t ∧
      (Config.flagsAddr ∉ addressOf dst s → t.flags = s.flags) := by
  obtain ⟨d, s1, v, s2, h1, -, -, h2, hr, rfl⟩ := popTo_ok h
  have e := Loc.resolve_sameButDraws h1
  obtain ⟨k, m, f, -⟩ := pop_keeps h2
  simp only [addressOf, h1]
  refine ⟨(((e.keeps.trans k).trans (Keeps.put _ _ hr)).trans (Keeps.advance _ _)).mono (by simp),
    (e.sameMemory.trans m).trans ⟨by simp, by simp, by simp⟩, fun h => ?_⟩
  simp only [List.mem_singleton] at h
  rw [State.advance_flags, State.put_flags, if_neg (fun e => h e.symm), f, e.fields.2.2.1]

theorem pushFrom_keeps {src : Loc} {s t : State} (h : pushFrom src s = .ok t) :
    Keeps [Config.spAddr, s.sp - 1] s t ∧ SameMemory s t ∧ (Config.flagsAddr ≠ s.sp - 1 → t.flags = s.flags) := by
  obtain ⟨a, s1, v, s2, s3, h1, -, -, h2, h3, rfl⟩ := pushFrom_ok h
  have e := (Loc.resolve_sameButDraws h1).trans (readReg_sameButDraws h2)
  obtain ⟨k, m, f⟩ := push_keeps h3
  rw [e.fields.2.2.2.1] at k f
  exact ⟨(e.keeps.trans k).trans (Keeps.advance _ _), (e.sameMemory.trans m).trans ⟨rfl, rfl, rfl⟩,
    fun h => (f h).trans e.fields.2.2.1⟩

theorem callTo_keeps {target : Word} {n : Nat} {s t : State} (h : callTo target n s = .ok t) :
    Keeps (Config.spAddr :: callBytes n s) s t ∧ SameMemory s t ∧
      (Config.flagsAddr ∉ callBytes n s → t.flags = s.flags) := by
  obtain ⟨s1, s2, h1, h2, rfl⟩ := callTo_ok h
  obtain ⟨k1, m1, f1⟩ := push_keeps h1
  obtain ⟨k2, m2, f2⟩ := push_keeps h2
  simp only [callBytes, h1]
  refine ⟨((k1.trans k2).trans (Keeps.pc _ _)).mono (by simp), (m1.trans m2).trans ⟨rfl, rfl, rfl⟩, fun h => ?_⟩
  simp only [List.mem_cons, not_or] at h
  exact (f2 h.2.1).trans (f1 h.1)

/-- Where CALL stores does not depend on how many values have been drawn. -/
theorem SameButDraws.callBytes {s t : State} (e : SameButDraws s t) (n : Nat) : callBytes n t = Machine.callBytes n s := by
  unfold SameButDraws at e
  rw [e]
  generalize t.draws = d
  have hr : State.refuses { s with sp := s.sp - 1, draws := d } (s.sp - 1) =
    State.refuses { s with sp := s.sp - 1 } (s.sp - 1) := rfl
  simp only [Machine.callBytes, State.next, push, writeReg, hr]
  cases State.refuses { s with sp := s.sp - 1 } (s.sp - 1) <;> simp [State.put_sp]

theorem callPair_keeps {a : RegAddr} {s t : State} (h : callPair a s = .ok t) :
    Keeps (Config.spAddr :: callBytes 2 s) s t ∧ SameMemory s t ∧
      (Config.flagsAddr ∉ callBytes 2 s → t.flags = s.flags) := by
  obtain ⟨target, s1, -, h1, -, h⟩ := callPair_ok h
  have e := readPair_sameButDraws h1
  obtain ⟨k, m, f⟩ := callTo_keeps h
  rw [e.callBytes] at k f
  exact ⟨e.keeps.trans k, e.sameMemory.trans m, fun h => (f h).trans e.fields.2.2.1⟩

theorem jumpPair_keeps {a : RegAddr} {s t : State} (h : jumpPair a s = .ok t) :
    Keeps [] s t ∧ SameMemory s t ∧ t.flags = s.flags := by
  obtain ⟨target, s1, -, h1, rfl⟩ := jumpPair_ok h
  have e := readPair_sameButDraws h1
  exact ⟨e.keeps.trans (Keeps.pc _ _), e.sameMemory.trans ⟨rfl, rfl, rfl⟩, e.fields.2.2.1⟩

theorem jumpIf_keeps (cc : Cond) (target : Word) (n : Nat) (s : State) :
    Keeps [] s (jumpIf cc target n s) ∧ SameMemory s (jumpIf cc target n s) ∧ (jumpIf cc target n s).flags = s.flags := by
  unfold jumpIf; split_ifs
  · exact ⟨Keeps.pc _ _, ⟨rfl, rfl, rfl⟩, rfl⟩
  · exact ⟨Keeps.advance _ _, ⟨rfl, rfl, rfl⟩, rfl⟩

theorem returnFromCall_keeps {s t : State} (h : returnFromCall s = .ok t) :
    Keeps [Config.spAddr] s t ∧ SameMemory s t ∧ t.flags = s.flags := by
  obtain ⟨target, s1, h1, rfl⟩ := returnFromCall_ok h
  obtain ⟨k, m, f⟩ := popWord_keeps h1
  exact ⟨k.trans (Keeps.pc _ _), ⟨m.mode, m.progMem, m.dataMem⟩, f⟩

theorem interruptReturn_keeps {s t : State} (h : interruptReturn s = .ok t) :
    Keeps [Config.flagsAddr, Config.spAddr, s.cfg.symAddr] s t ∧ SameMemory s t := by
  obtain ⟨f, s1, target, s2, h1, h2, rfl⟩ := interruptReturn_ok h
  obtain ⟨k1, m1, -, -⟩ := pop_keeps h1
  obtain ⟨k2, m2, -⟩ := popWord_keeps h2
  have hc : s2.cfg = s.cfg := k2.cfg.trans k1.cfg
  have k := (((k1.trans (Keeps.flags _ _)).trans k2).trans (Keeps.setSym s2 (s2.sym ||| 0x04#8))).trans (Keeps.pc _ target)
  exact ⟨k.mono (by simp [hc]), m1.trans ⟨m2.mode, m2.progMem, m2.dataMem⟩⟩

/-- An interrupt entry changes neither the memories nor the run mode. -/
theorem interruptEntry_keeps {s t : State} (h : interruptEntry s = .ok t) :
    (∃ W, Keeps W s t) ∧ SameMemory s t := by
  obtain ⟨s1, f, s2, s3, target, h1, h2, h3, -, rfl⟩ := interruptEntry_ok h
  obtain ⟨s0, h0, h1⟩ := pushWord_ok h1
  obtain ⟨k0, m0, -⟩ := push_keeps h0
  obtain ⟨k1, m1, -⟩ := push_keeps h1
  have e := readReg_sameButDraws h2
  obtain ⟨k3, m3, -⟩ := push_keeps h3
  have m := ((m0.trans m1).trans e.sameMemory).trans m3
  exact ⟨⟨_, ((((k0.trans k1).trans e.keeps).trans k3).trans (Keeps.setSym s3 (s3.sym &&& 0xFB#8))).trans
    (Keeps.pc _ target)⟩, m.mode, m.progMem, m.dataMem⟩

end Sys2Proof.Machine
end

