-- ==== Sys2Proof/Laws/Boundary.lean ====
section
/-! SUPPORT. What an instruction boundary, a release, a fetch and a step can do, each said once. -/

namespace Sys2Proof.Machine

/-- In run mode RUN, with no reset and no accepted interrupt, the boundary leads to an execution. -/
theorem boundary_execute {s : State} (hm : s.mode = .run) (hr : s.input.reset = false)
    (hi : (s.sym2 && s.input.irq.pending) = false) : boundary s = .execute s.dropInput := by
  simp [boundary, hm, hr, hi]

theorem step_execute {s : State} (hm : s.mode = .run) (hr : s.input.reset = false)
    (hi : (s.sym2 && s.input.irq.pending) = false) :
    step s = match fetchInstr s.dropInput with
      | .ok i => exec i s.dropInput
      | .error f => .fault f := by
  (simp only [step, boundary_execute hm hr hi]) <;> rfl

/-- A release is an interrupt entry in run mode RUN, or what WAKE_WITH_IRQ_DISABLED says. -/
theorem release_ok {r : UnpredictableReason} {s t : State} (h : release r s = .ok t) :
    (s.sym2 = true ∧ interruptEntry { s with mode := .run } = .ok t) ∨
    (s.sym2 = false ∧ s.cfg.wakeIrqDisabled = some .stay ∧ t = s) ∨
    (s.sym2 = false ∧ s.cfg.wakeIrqDisabled = some .resume ∧ t = { s with mode := .run }) := by
  unfold release at h
  split_ifs at h with hs
  · exact .inl ⟨hs, h⟩
  · have hs : s.sym2 = false := by simpa using hs
    split at h
    · cases h
    · next hw => cases h; exact .inr (.inl ⟨hs, hw, rfl⟩)
    · next hw => cases h; exact .inr (.inr ⟨hs, hw, rfl⟩)

/-- Everything a step that answers a next state can be: a reset, a boundary that waits, a release, the acceptance of an
interrupt, or the execution of the fetched instruction. -/
theorem step_next {s t : State} (h : step s = .next t) :
    (s.input.reset = true ∧ t = resetEvent s.dropInput) ∨
    (s.mode ≠ .run ∧ t = s.dropInput) ∨
    (s.mode = .idle ∧ s.input.irq.pending = true ∧ release .idleReleased s.dropInput = .ok t) ∨
    (s.mode = .stop ∧ s.input.irq.externalPending = true ∧ release .stopReleased s.dropInput = .ok t) ∨
    (s.mode = .run ∧ s.sym2 = true ∧ s.input.irq.pending = true ∧ interruptEntry s.dropInput = .ok t) ∨
    (s.mode = .run ∧ ∃ i, fetchInstr s.dropInput = .ok i ∧ exec i s.dropInput = .next t) := by
  simp only [step, boundary] at h
  cases hr : s.input.reset
  · cases hm : s.mode
    · cases ha : s.sym2 && s.input.irq.pending
      · simp only [hr, hm, ha, Bool.false_eq_true, if_false] at h
        split at h
        · next i hf => exact .inr (.inr (.inr (.inr (.inr ⟨rfl, i, hf, h⟩))))
        · cases h
      · simp only [hr, hm, ha, Bool.false_eq_true, if_false, if_true, toOutcome_eq_next] at h
        rw [Bool.and_eq_true] at ha
        exact .inr (.inr (.inr (.inr (.inl ⟨rfl, ha.1, ha.2, h⟩))))
    · cases ha : s.input.irq.pending
      · simp only [hr, hm, ha, Bool.false_eq_true, if_false, toOutcome_eq_next, Except.ok.injEq] at h
        exact .inr (.inl ⟨by simp, h.symm⟩)
      · simp only [hr, hm, ha, Bool.false_eq_true, if_false, if_true, toOutcome_eq_next] at h
        exact .inr (.inr (.inl ⟨rfl, rfl, h⟩))
    · cases ha : s.input.irq.externalPending
      · simp only [hr, hm, ha, Bool.false_eq_true, if_false, toOutcome_eq_next, Except.ok.injEq] at h
        exact .inr (.inl ⟨by simp, h.symm⟩)
      · simp only [hr, hm, ha, Bool.false_eq_true, if_false, if_true, toOutcome_eq_next] at h
        exact .inr (.inr (.inr (.inl ⟨rfl, rfl, h⟩)))
  · simp only [hr, if_true, toOutcome_eq_next, Except.ok.injEq] at h
    exact .inl ⟨rfl, h.symm⟩

/-- Fetching bytes that stand in program memory gives them. -/
theorem fetchBytes_of_holdsBytes {s : State} :
    ∀ (bytes : List Byte) (a : Nat), s.holdsBytes a bytes → fetchBytes s a bytes.length = .ok bytes := by
  intro bytes
  induction bytes with
  | nil => intro a _; rfl
  | cons b rest ih =>
    intro a h
    have h0 := h 0 (by simp)
    have hr : s.holdsBytes (a + 1) rest := by
      intro k hk
      have := h (k + 1) (by simpa using hk)
      rw [show a + 1 + k = a + (k + 1) by omega]; simpa using this
    simp only [State.programByte, Nat.add_zero, List.getElem_cons_zero] at h0
    split_ifs at h0 with hlt
    simp only [fetchBytes, List.length_cons]
    rw [memRead_program (by omega)]
    simp only [ok_bind, Int.toNat_natCast, ih _ hr, Option.some.inj h0, pure_eq_ok]

/-- A fetch that runs over the end of program memory faults at the first address past it. -/
theorem fetchBytes_outside {s : State} : ∀ (n a : Nat), a ≤ s.cfg.progSize → s.cfg.progSize < a + n →
    fetchBytes s a n = .error (.addressOutOfRange .program s.cfg.progSize) := by
  intro n
  induction n with
  | zero => intro a h h'; omega
  | succ n ih =>
    intro a h h'
    unfold fetchBytes
    rcases h.lt_or_eq with hlt | rfl
    · rw [memRead_program (by omega)]
      simp only [ok_bind, ih (a + 1) hlt (by omega)]
      rfl
    · rw [memRead_program_outside (by omega)]
      rfl

/-- Placing bytes keeps the canonical form of program memory. -/
theorem wf_placeBytes (n : Nat) : ∀ (bytes : List Byte) (m : Memory) (a : Nat), m.wf → (placeBytes n m a bytes).wf := by
  intro bytes
  induction bytes with
  | nil => intro m a h; exact h
  | cons b rest ih =>
    intro m a h
    unfold placeBytes
    split_ifs
    · exact ih _ _ (wf_write h a b)
    · exact ih _ _ h

end Sys2Proof.Machine
end

