-- ==== Sys2Proof/Laws/Decode.lean ====
section
/-! SUPPORT. The fields of an encoding read back: nibbles, pair fields, 16-bit fields and condition codes, both ways. -/

namespace Sys2Proof

@[simp] theorem hiNibble_ofNibbles : ∀ h l : BitVec 4, hiNibble (ofNibbles h l) = h := by decide

@[simp] theorem loNibble_ofNibbles : ∀ h l : BitVec 4, loNibble (ofNibbles h l) = l := by decide

@[simp] theorem ofNibbles_hi_lo : ∀ b : Byte, ofNibbles (hiNibble b) (loNibble b) = b := by decide

@[simp] theorem pairOfField_pairField : ∀ (p : PairNo) (d : Bool), pairOfField (pairField p d) = p := by decide

@[simp] theorem fieldIsData_pairField : ∀ (p : PairNo) (d : Bool), fieldIsData (pairField p d) = d := by decide

/-- A pair field is its pair and its memory-space bit. -/
theorem pairField_of_fieldIsData : ∀ (f : BitVec 4) (d : Bool), fieldIsData f = d → pairField (pairOfField f) d = f := by
  decide

@[simp] theorem ofBytes_hi_lo (w : Word) : ofBytes (hiByte w) (loByte w) = w := by
  unfold ofBytes hiByte loByte; apply BitVec.eq_of_getLsbD_eq; intro i hi
  simp only [BitVec.getLsbD_append, BitVec.getLsbD_extractLsb']
  by_cases h : i < 8
  · simp [h]
  · simp [h, show i - 8 < 8 by omega, show 8 + (i - 8) = i by omega]

@[simp] theorem hiByte_ofBytes (h l : Byte) : hiByte (ofBytes h l) = h := by
  unfold ofBytes hiByte; apply BitVec.eq_of_getLsbD_eq; intro i hi
  simp only [BitVec.getLsbD_extractLsb', BitVec.getLsbD_append]
  simp [hi]

@[simp] theorem loByte_ofBytes (h l : Byte) : loByte (ofBytes h l) = l := by
  unfold ofBytes loByte; apply BitVec.eq_of_getLsbD_eq; intro i hi
  simp only [BitVec.getLsbD_extractLsb', BitVec.getLsbD_append]
  simp [hi]

@[simp] theorem Cond.ofCode_code (cc : Cond) : Cond.ofCode cc.code = cc := by cases cc <;> rfl

@[simp] theorem Cond.code_ofCode : ∀ code : BitVec 4, (Cond.ofCode code).code = code := by decide

/-- A byte is its two nibbles. -/
theorem ofNibbles_eq_iff : ∀ (b : Byte) (h l : BitVec 4), ofNibbles h l = b ↔ h = hiNibble b ∧ l = loNibble b := by
  intro b h l
  constructor
  · rintro rfl; simp
  · rintro ⟨rfl, rfl⟩; simp

/-- Decoding reads no further than the length the first byte gives. -/
theorem decode_cons_undefined {b : Byte} (rest : List Byte) (h : opcodeCell b = .undefined) :
    decode (b :: rest) = .error (.undefinedOpcode b) := by simp only [decode, h]

/-- A cell is undefined exactly when it has no length. -/
theorem OpcodeCell.length_eq_none (c : OpcodeCell) : c.length = none ↔ c = .undefined := by
  cases c <;> simp [OpcodeCell.length]

end Sys2Proof
end

