-- ==== Sys2Proof/Laws/PerInstr.lean ====
section
/-! SUPPORT. Facts about the syntax of the instruction set, one lemma per constructor of Instr. -/

namespace Sys2Proof.Laws

/-- The first byte of an instruction's encoding alone gives the length of the encoding (30_encoding.md R70). -/
def encodeLength.Statement (i : Instr) : Prop :=
  (opcodeCell ((encode i).headD 0x00#8)).length = some (encode i).length

theorem encodeLength.addWW (dst : WReg) (src : WReg) : encodeLength.Statement (.addWW dst src) := by
  show (opcodeCell 0x02#8).length = some 2; decide

theorem encodeLength.addWIw (dst : WReg) (src : WReg) : encodeLength.Statement (.addWIw dst src) := by
  show (opcodeCell 0x03#8).length = some 2; decide

theorem encodeLength.addRR (dst : RegAddr) (src : RegAddr) : encodeLength.Statement (.addRR dst src) := by
  show (opcodeCell 0x04#8).length = some 3; decide

theorem encodeLength.addRIr (dst : RegAddr) (src : RegAddr) : encodeLength.Statement (.addRIr dst src) := by
  show (opcodeCell 0x05#8).length = some 3; decide

theorem encodeLength.addRIm (dst : RegAddr) (v : Byte) : encodeLength.Statement (.addRIm dst v) := by
  show (opcodeCell 0x06#8).length = some 3; decide

theorem encodeLength.adcWW (dst : WReg) (src : WReg) : encodeLength.Statement (.adcWW dst src) := by
  show (opcodeCell 0x12#8).length = some 2; decide

theorem encodeLength.adcWIw (dst : WReg) (src : WReg) : encodeLength.Statement (.adcWIw dst src) := by
  show (opcodeCell 0x13#8).length = some 2; decide

theorem encodeLength.adcRR (dst : RegAddr) (src : RegAddr) : encodeLength.Statement (.adcRR dst src) := by
  show (opcodeCell 0x14#8).length = some 3; decide

theorem encodeLength.adcRIr (dst : RegAddr) (src : RegAddr) : encodeLength.Statement (.adcRIr dst src) := by
  show (opcodeCell 0x15#8).length = some 3; decide

theorem encodeLength.adcRIm (dst : RegAddr) (v : Byte) : encodeLength.Statement (.adcRIm dst v) := by
  show (opcodeCell 0x16#8).length = some 3; decide

theorem encodeLength.subWW (dst : WReg) (src : WReg) : encodeLength.Statement (.subWW dst src) := by
  show (opcodeCell 0x22#8).length = some 2; decide

theorem encodeLength.subWIw (dst : WReg) (src : WReg) : encodeLength.Statement (.subWIw dst src) := by
  show (opcodeCell 0x23#8).length = some 2; decide

theorem encodeLength.subRR (dst : RegAddr) (src : RegAddr) : encodeLength.Statement (.subRR dst src) := by
  show (opcodeCell 0x24#8).length = some 3; decide

theorem encodeLength.subRIr (dst : RegAddr) (src : RegAddr) : encodeLength.Statement (.subRIr dst src) := by
  show (opcodeCell 0x25#8).length = some 3; decide

theorem encodeLength.subRIm (dst : RegAddr) (v : Byte) : encodeLength.Statement (.subRIm dst v) := by
  show (opcodeCell 0x26#8).length = some 3; decide

theorem encodeLength.sbcWW (dst : WReg) (src : WReg) : encodeLength.Statement (.sbcWW dst src) := by
  show (opcodeCell 0x32#8).length = some 2; decide

theorem encodeLength.sbcWIw (dst : WReg) (src : WReg) : encodeLength.Statement (.sbcWIw dst src) := by
  show (opcodeCell 0x33#8).length = some 2; decide

theorem encodeLength.sbcRR (dst : RegAddr) (src : RegAddr) : encodeLength.Statement (.sbcRR dst src) := by
  show (opcodeCell 0x34#8).length = some 3; decide

theorem encodeLength.sbcRIr (dst : RegAddr) (src : RegAddr) : encodeLength.Statement (.sbcRIr dst src) := by
  show (opcodeCell 0x35#8).length = some 3; decide

theorem encodeLength.sbcRIm (dst : RegAddr) (v : Byte) : encodeLength.Statement (.sbcRIm dst v) := by
  show (opcodeCell 0x36#8).length = some 3; decide

theorem encodeLength.orWW (dst : WReg) (src : WReg) : encodeLength.Statement (.orWW dst src) := by
  show (opcodeCell 0x42#8).length = some 2; decide

theorem encodeLength.orWIw (dst : WReg) (src : WReg) : encodeLength.Statement (.orWIw dst src) := by
  show (opcodeCell 0x43#8).length = some 2; decide

theorem encodeLength.orRR (dst : RegAddr) (src : RegAddr) : encodeLength.Statement (.orRR dst src) := by
  show (opcodeCell 0x44#8).length = some 3; decide

theorem encodeLength.orRIr (dst : RegAddr) (src : RegAddr) : encodeLength.Statement (.orRIr dst src) := by
  show (opcodeCell 0x45#8).length = some 3; decide

theorem encodeLength.orRIm (dst : RegAddr) (v : Byte) : encodeLength.Statement (.orRIm dst v) := by
  show (opcodeCell 0x46#8).length = some 3; decide

theorem encodeLength.andWW (dst : WReg) (src : WReg) : encodeLength.Statement (.andWW dst src) := by
  show (opcodeCell 0x52#8).length = some 2; decide

theorem encodeLength.andWIw (dst : WReg) (src : WReg) : encodeLength.Statement (.andWIw dst src) := by
  show (opcodeCell 0x53#8).length = some 2; decide

theorem encodeLength.andRR (dst : RegAddr) (src : RegAddr) : encodeLength.Statement (.andRR dst src) := by
  show (opcodeCell 0x54#8).length = some 3; decide

theorem encodeLength.andRIr (dst : RegAddr) (src : RegAddr) : encodeLength.Statement (.andRIr dst src) := by
  show (opcodeCell 0x55#8).length = some 3; decide

theorem encodeLength.andRIm (dst : RegAddr) (v : Byte) : encodeLength.Statement (.andRIm dst v) := by
  show (opcodeCell 0x56#8).length = some 3; decide

theorem encodeLength.tcmWW (dst : WReg) (src : WReg) : encodeLength.Statement (.tcmWW dst src) := by
  show (opcodeCell 0x62#8).length = some 2; decide

theorem encodeLength.tcmWIw (dst : WReg) (src : WReg) : encodeLength.Statement (.tcmWIw dst src) := by
  show (opcodeCell 0x63#8).length = some 2; decide

theorem encodeLength.tcmRR (dst : RegAddr) (src : RegAddr) : encodeLength.Statement (.tcmRR dst src) := by
  show (opcodeCell 0x64#8).length = some 3; decide

theorem encodeLength.tcmRIr (dst : RegAddr) (src : RegAddr) : encodeLength.Statement (.tcmRIr dst src) := by
  show (opcodeCell 0x65#8).length = some 3; decide

theorem encodeLength.tcmRIm (dst : RegAddr) (v : Byte) : encodeLength.Statement (.tcmRIm dst v) := by
  show (opcodeCell 0x66#8).length = some 3; decide

theorem encodeLength.tmWW (dst : WReg) (src : WReg) : encodeLength.Statement (.tmWW dst src) := by
  show (opcodeCell 0x72#8).length = some 2; decide

theorem encodeLength.tmWIw (dst : WReg) (src : WReg) : encodeLength.Statement (.tmWIw dst src) := by
  show (opcodeCell 0x73#8).length = some 2; decide

theorem encodeLength.tmRR (dst : RegAddr) (src : RegAddr) : encodeLength.Statement (.tmRR dst src) := by
  show (opcodeCell 0x74#8).length = some 3; decide

theorem encodeLength.tmRIr (dst : RegAddr) (src : RegAddr) : encodeLength.Statement (.tmRIr dst src) := by
  show (opcodeCell 0x75#8).length = some 3; decide

theorem encodeLength.tmRIm (dst : RegAddr) (v : Byte) : encodeLength.Statement (.tmRIm dst v) := by
  show (opcodeCell 0x76#8).length = some 3; decide

theorem encodeLength.cpWW (dst : WReg) (src : WReg) : encodeLength.Statement (.cpWW dst src) := by
  show (opcodeCell 0xA2#8).length = some 2; decide

theorem encodeLength.cpWIw (dst : WReg) (src : WReg) : encodeLength.Statement (.cpWIw dst src) := by
  show (opcodeCell 0xA3#8).length = some 2; decide

theorem encodeLength.cpRR (dst : RegAddr) (src : RegAddr) : encodeLength.Statement (.cpRR dst src) := by
  show (opcodeCell 0xA4#8).length = some 3; decide

theorem encodeLength.cpRIr (dst : RegAddr) (src : RegAddr) : encodeLength.Statement (.cpRIr dst src) := by
  show (opcodeCell 0xA5#8).length = some 3; decide

theorem encodeLength.cpRIm (dst : RegAddr) (v : Byte) : encodeLength.Statement (.cpRIm dst v) := by
  show (opcodeCell 0xA6#8).length = some 3; decide

theorem encodeLength.xorWW (dst : WReg) (src : WReg) : encodeLength.Statement (.xorWW dst src) := by
  show (opcodeCell 0xB2#8).length = some 2; decide

theorem encodeLength.xorWIw (dst : WReg) (src : WReg) : encodeLength.Statement (.xorWIw dst src) := by
  show (opcodeCell 0xB3#8).length = some 2; decide

theorem encodeLength.xorRR (dst : RegAddr) (src : RegAddr) : encodeLength.Statement (.xorRR dst src) := by
  show (opcodeCell 0xB4#8).length = some 3; decide

theorem encodeLength.xorRIr (dst : RegAddr) (src : RegAddr) : encodeLength.Statement (.xorRIr dst src) := by
  show (opcodeCell 0xB5#8).length = some 3; decide

theorem encodeLength.xorRIm (dst : RegAddr) (v : Byte) : encodeLength.Statement (.xorRIm dst v) := by
  show (opcodeCell 0xB6#8).length = some 3; decide

theorem encodeLength.decR (dst : RegAddr) : encodeLength.Statement (.decR dst) := by
  show (opcodeCell 0x00#8).length = some 2; decide

theorem encodeLength.decIr (dst : RegAddr) : encodeLength.Statement (.decIr dst) := by
  show (opcodeCell 0x01#8).length = some 2; decide

theorem encodeLength.rlcR (dst : RegAddr) : encodeLength.Statement (.rlcR dst) := by
  show (opcodeCell 0x10#8).length = some 2; decide

theorem encodeLength.rlcIr (dst : RegAddr) : encodeLength.Statement (.rlcIr dst) := by
  show (opcodeCell 0x11#8).length = some 2; decide

theorem encodeLength.incR (dst : RegAddr) : encodeLength.Statement (.incR dst) := by
  show (opcodeCell 0x20#8).length = some 2; decide

theorem encodeLength.incIr (dst : RegAddr) : encodeLength.Statement (.incIr dst) := by
  show (opcodeCell 0x21#8).length = some 2; decide

theorem encodeLength.popR (dst : RegAddr) : encodeLength.Statement (.popR dst) := by
  show (opcodeCell 0x50#8).length = some 2; decide

theorem encodeLength.popIr (dst : RegAddr) : encodeLength.Statement (.popIr dst) := by
  show (opcodeCell 0x51#8).length = some 2; decide

theorem encodeLength.comR (dst : RegAddr) : encodeLength.Statement (.comR dst) := by
  show (opcodeCell 0x60#8).length = some 2; decide

theorem encodeLength.comIr (dst : RegAddr) : encodeLength.Statement (.comIr dst) := by
  show (opcodeCell 0x61#8).length = some 2; decide

theorem encodeLength.pushR (src : RegAddr) : encodeLength.Statement (.pushR src) := by
  show (opcodeCell 0x70#8).length = some 2; decide

theorem encodeLength.pushIr (src : RegAddr) : encodeLength.Statement (.pushIr src) := by
  show (opcodeCell 0x71#8).length = some 2; decide

theorem encodeLength.rlR (dst : RegAddr) : encodeLength.Statement (.rlR dst) := by
  show (opcodeCell 0x90#8).length = some 2; decide

theorem encodeLength.rlIr (dst : RegAddr) : encodeLength.Statement (.rlIr dst) := by
  show (opcodeCell 0x91#8).length = some 2; decide

theorem encodeLength.clrR (dst : RegAddr) : encodeLength.Statement (.clrR dst) := by
  show (opcodeCell 0xB0#8).length = some 2; decide

theorem encodeLength.clrIr (dst : RegAddr) : encodeLength.Statement (.clrIr dst) := by
  show (opcodeCell 0xB1#8).length = some 2; decide

theorem encodeLength.rrcR (dst : RegAddr) : encodeLength.Statement (.rrcR dst) := by
  show (opcodeCell 0xC0#8).length = some 2; decide

theorem encodeLength.rrcIr (dst : RegAddr) : encodeLength.Statement (.rrcIr dst) := by
  show (opcodeCell 0xC1#8).length = some 2; decide

theorem encodeLength.sraR (dst : RegAddr) : encodeLength.Statement (.sraR dst) := by
  show (opcodeCell 0xD0#8).length = some 2; decide

theorem encodeLength.sraIr (dst : RegAddr) : encodeLength.Statement (.sraIr dst) := by
  show (opcodeCell 0xD1#8).length = some 2; decide

theorem encodeLength.rrR (dst : RegAddr) : encodeLength.Statement (.rrR dst) := by
  show (opcodeCell 0xE0#8).length = some 2; decide

theorem encodeLength.rrIr (dst : RegAddr) : encodeLength.Statement (.rrIr dst) := by
  show (opcodeCell 0xE1#8).length = some 2; decide

theorem encodeLength.incW (dst : WReg) : encodeLength.Statement (.incW dst) := by
  simp [encodeLength.Statement, encode, opcodeCell, opcodeMap, OpcodeCell.length]

theorem encodeLength.jpIpr (dst : RegAddr) : encodeLength.Statement (.jpIpr dst) := by
  show (opcodeCell 0x30#8).length = some 2; decide

theorem encodeLength.jpCcDa (cc : Cond) (target : Word) : encodeLength.Statement (.jpCcDa cc target) := by
  simp [encodeLength.Statement, encode, opcodeCell, opcodeMap, OpcodeCell.length]

theorem encodeLength.jrCcRa (cc : Cond) (off : Byte) : encodeLength.Statement (.jrCcRa cc off) := by
  simp [encodeLength.Statement, encode, opcodeCell, opcodeMap, OpcodeCell.length]

theorem encodeLength.callIpr (dst : RegAddr) : encodeLength.Statement (.callIpr dst) := by
  show (opcodeCell 0xF4#8).length = some 2; decide

theorem encodeLength.callDa (target : Word) : encodeLength.Statement (.callDa target) := by
  show (opcodeCell 0xF6#8).length = some 3; decide

theorem encodeLength.ldWIm (dst : WReg) (v : Byte) : encodeLength.Statement (.ldWIm dst v) := by
  simp [encodeLength.Statement, encode, opcodeCell, opcodeMap, OpcodeCell.length]

theorem encodeLength.ldWR (dst : WReg) (src : RegAddr) : encodeLength.Statement (.ldWR dst src) := by
  simp [encodeLength.Statement, encode, opcodeCell, opcodeMap, OpcodeCell.length]

theorem encodeLength.ldRW (dst : RegAddr) (src : WReg) : encodeLength.Statement (.ldRW dst src) := by
  simp [encodeLength.Statement, encode, opcodeCell, opcodeMap, OpcodeCell.length]

theorem encodeLength.ldWIw (dst : WReg) (src : WReg) : encodeLength.Statement (.ldWIw dst src) := by
  show (opcodeCell 0xC7#8).length = some 2; decide

theorem encodeLength.ldIwW (dst : WReg) (src : WReg) : encodeLength.Statement (.ldIwW dst src) := by
  show (opcodeCell 0xD7#8).length = some 2; decide

theorem encodeLength.ldRR (dst : RegAddr) (src : RegAddr) : encodeLength.Statement (.ldRR dst src) := by
  show (opcodeCell 0xE4#8).length = some 3; decide

theorem encodeLength.ldRIr (dst : RegAddr) (src : RegAddr) : encodeLength.Statement (.ldRIr dst src) := by
  show (opcodeCell 0xE5#8).length = some 3; decide

theorem encodeLength.ldRIm (dst : RegAddr) (v : Byte) : encodeLength.Statement (.ldRIm dst v) := by
  show (opcodeCell 0xE6#8).length = some 3; decide

theorem encodeLength.ldIrIm (dst : RegAddr) (v : Byte) : encodeLength.Statement (.ldIrIm dst v) := by
  show (opcodeCell 0xD6#8).length = some 3; decide

theorem encodeLength.ldIrR (dst : RegAddr) (src : RegAddr) : encodeLength.Statement (.ldIrR dst src) := by
  show (opcodeCell 0xF5#8).length = some 3; decide

theorem encodeLength.ldWX (dst : WReg) (x : Byte) (n : WReg) : encodeLength.Statement (.ldWX dst x n) := by
  show (opcodeCell 0x87#8).length = some 3; decide

theorem encodeLength.ldXW (x : Byte) (n : WReg) (src : WReg) : encodeLength.Statement (.ldXW x n src) := by
  show (opcodeCell 0x97#8).length = some 3; decide

theorem encodeLength.ldcWIpw (dst : WReg) (p : PairNo) : encodeLength.Statement (.ldcWIpw dst p) := by
  show (opcodeCell 0xC3#8).length = some 2; decide

theorem encodeLength.ldcIpwW (p : PairNo) (src : WReg) : encodeLength.Statement (.ldcIpwW p src) := by
  show (opcodeCell 0xD3#8).length = some 2; decide

theorem encodeLength.ldcWXs (dst : WReg) (p : PairNo) (x : Byte) : encodeLength.Statement (.ldcWXs dst p x) := by
  show (opcodeCell 0xE7#8).length = some 3; decide

theorem encodeLength.ldcXsW (p : PairNo) (x : Byte) (src : WReg) : encodeLength.Statement (.ldcXsW p x src) := by
  show (opcodeCell 0xF7#8).length = some 3; decide

theorem encodeLength.ldcWXl (dst : WReg) (p : PairNo) (w : Word) : encodeLength.Statement (.ldcWXl dst p w) := by
  show (opcodeCell 0xA7#8).length = some 4; decide

theorem encodeLength.ldcXlW (p : PairNo) (w : Word) (src : WReg) : encodeLength.Statement (.ldcXlW p w src) := by
  show (opcodeCell 0xB7#8).length = some 4; decide

theorem encodeLength.ldcWDa (dst : WReg) (w : Word) : encodeLength.Statement (.ldcWDa dst w) := by
  show (opcodeCell 0xA7#8).length = some 4; decide

theorem encodeLength.ldcDaW (w : Word) (src : WReg) : encodeLength.Statement (.ldcDaW w src) := by
  show (opcodeCell 0xB7#8).length = some 4; decide

theorem encodeLength.ldeWIpw (dst : WReg) (p : PairNo) : encodeLength.Statement (.ldeWIpw dst p) := by
  show (opcodeCell 0xC3#8).length = some 2; decide

theorem encodeLength.ldeIpwW (p : PairNo) (src : WReg) : encodeLength.Statement (.ldeIpwW p src) := by
  show (opcodeCell 0xD3#8).length = some 2; decide

theorem encodeLength.ldeWXs (dst : WReg) (p : PairNo) (x : Byte) : encodeLength.Statement (.ldeWXs dst p x) := by
  show (opcodeCell 0xE7#8).length = some 3; decide

theorem encodeLength.ldeXsW (p : PairNo) (x : Byte) (src : WReg) : encodeLength.Statement (.ldeXsW p x src) := by
  show (opcodeCell 0xF7#8).length = some 3; decide

theorem encodeLength.ldeWXl (dst : WReg) (p : PairNo) (w : Word) : encodeLength.Statement (.ldeWXl dst p w) := by
  show (opcodeCell 0xA7#8).length = some 4; decide

theorem encodeLength.ldeXlW (p : PairNo) (w : Word) (src : WReg) : encodeLength.Statement (.ldeXlW p w src) := by
  show (opcodeCell 0xB7#8).length = some 4; decide

theorem encodeLength.ldeWDa (dst : WReg) (w : Word) : encodeLength.Statement (.ldeWDa dst w) := by
  show (opcodeCell 0xA7#8).length = some 4; decide

theorem encodeLength.ldeDaW (w : Word) (src : WReg) : encodeLength.Statement (.ldeDaW w src) := by
  show (opcodeCell 0xB7#8).length = some 4; decide

theorem encodeLength.ldcd (dst : WReg) (p : PairNo) : encodeLength.Statement (.ldcd dst p) := by
  show (opcodeCell 0xE2#8).length = some 2; decide

theorem encodeLength.lded (dst : WReg) (p : PairNo) : encodeLength.Statement (.lded dst p) := by
  show (opcodeCell 0xE2#8).length = some 2; decide

theorem encodeLength.ldci (dst : WReg) (p : PairNo) : encodeLength.Statement (.ldci dst p) := by
  show (opcodeCell 0xE3#8).length = some 2; decide

theorem encodeLength.ldei (dst : WReg) (p : PairNo) : encodeLength.Statement (.ldei dst p) := by
  show (opcodeCell 0xE3#8).length = some 2; decide

theorem encodeLength.idle : encodeLength.Statement .idle := by
  show (opcodeCell 0x6F#8).length = some 1; decide

theorem encodeLength.stop : encodeLength.Statement .stop := by
  show (opcodeCell 0x7F#8).length = some 1; decide

theorem encodeLength.di : encodeLength.Statement .di := by
  show (opcodeCell 0x8F#8).length = some 1; decide

theorem encodeLength.ei : encodeLength.Statement .ei := by
  show (opcodeCell 0x9F#8).length = some 1; decide

theorem encodeLength.ret : encodeLength.Statement .ret := by
  show (opcodeCell 0xAF#8).length = some 1; decide

theorem encodeLength.iret : encodeLength.Statement .iret := by
  show (opcodeCell 0xBF#8).length = some 1; decide

theorem encodeLength.rcf : encodeLength.Statement .rcf := by
  show (opcodeCell 0xCF#8).length = some 1; decide

theorem encodeLength.scf : encodeLength.Statement .scf := by
  show (opcodeCell 0xDF#8).length = some 1; decide

theorem encodeLength.ccf : encodeLength.Statement .ccf := by
  show (opcodeCell 0xEF#8).length = some 1; decide

theorem encodeLength.nop : encodeLength.Statement .nop := by
  show (opcodeCell 0xFF#8).length = some 1; decide

end Sys2Proof.Laws
end

