-- ==== Sys2Proof/Tests/Slice0.lean ====
section
/-! SUPPORT. Tests of our own, each a named theorem. Expected values are those of spec/95_test_vectors.md (each test
names the example or vector) or, where marked so, calculated by hand from the rule named. The witnesses at the end show, for each
statement with hypotheses, a state and operands that meet them. -/

namespace Sys2Proof.Tests

open Sys2Proof.Machine

/-- The state after reset with some register-file locations written (D5H is FLAGS, D9H is SP, DFH is SYM). -/
def start (regs : List (RegAddr × Byte)) : State := regs.foldl (fun s r => s.put r.1 r.2) State.reset

/-- Program memory holding these cells, on a part that can or cannot write it. -/
def withProgram (cells : List Host.Cell) (writable : Bool) (s : State) : State :=
  { s with progMem := ⟨cells⟩, cfg := { s.cfg with progMemWritable := writable } }

/-- External data memory fitted with these cells. -/
def withData (cells : List Host.Cell) (s : State) : State := { s with dataMem := ⟨cells⟩ }

/-- The outcome is a next state with these register-file locations, these flags (C Z S V as bits 3..0) and this pc. -/
def shows (o : Host.Outcome State Fault Refusal) (regs : List (RegAddr × Byte)) (flags : BitVec 4) (pc : Word) : Bool :=
  match o with
  | .next t => regs.all (fun r => t.get r.1 == r.2) && t.flags.nibble == flags && t.pc == pc
  | _ => false

/-- The outcome is a next state with this byte at an address of program memory and of data memory. -/
def showsCell (o : Host.Outcome State Fault Refusal) (space : Space) (a : Nat) (v : Byte) : Bool :=
  match o, space with
  | .next t, .program => t.progMem.read a == v
  | .next t, .data => t.dataMem.find a == some v
  | _, _ => false

/-- The fault of an outcome. -/
def faultOf (o : Host.Outcome State Fault Refusal) : Option Fault :=
  match o with
  | .fault f => some f
  | _ => none

/-! ### Well-formedness: each check refuses an ill-formed term -/

theorem test_wf_ldcWXl_rr0 : (Instr.ldcWXl 0#4 0#3 0x1000#16).wf = false := by decide
theorem test_wf_ldcXlW_rr0 : (Instr.ldcXlW 0#3 0x1000#16 0#4).wf = false := by decide
theorem test_wf_ldeWXl_rr0 : (Instr.ldeWXl 0#4 0#3 0x1000#16).wf = false := by decide
theorem test_wf_ldeXlW_rr0 : (Instr.ldeXlW 0#3 0x1000#16 0#4).wf = false := by decide
theorem test_wf_jpIpr_odd : (Instr.jpIpr 0x01#8).wf = false := by decide
theorem test_wf_callIpr_odd : (Instr.callIpr 0xC1#8).wf = false := by decide
theorem test_wf_accepts : (Instr.ldcWXl 0#4 1#3 0x1000#16).wf = true ∧ (Instr.jpIpr 0x00#8).wf = true := by decide

/-! ### Decoding: for every constructor a word written from the spec's encoding of it (30_encoding.md R71, R84 to R88) -/

theorem test_decode_add :
    decodeTableWord 16 0x0212 = some (.addWW 1#4 2#4) ∧
    decodeTableWord 16 0x0312 = some (.addWIw 1#4 2#4) ∧
    decodeTableWord 24 0x040201 = some (.addRR 0x01#8 0x02#8) ∧
    decodeTableWord 24 0x050201 = some (.addRIr 0x01#8 0x02#8) ∧
    decodeTableWord 24 0x060125 = some (.addRIm 0x01#8 0x25#8) := by
  decide

theorem test_decode_adc :
    decodeTableWord 16 0x1212 = some (.adcWW 1#4 2#4) ∧
    decodeTableWord 16 0x1312 = some (.adcWIw 1#4 2#4) ∧
    decodeTableWord 24 0x140201 = some (.adcRR 0x01#8 0x02#8) ∧
    decodeTableWord 24 0x150201 = some (.adcRIr 0x01#8 0x02#8) ∧
    decodeTableWord 24 0x160111 = some (.adcRIm 0x01#8 0x11#8) := by
  decide

theorem test_decode_sub :
    decodeTableWord 16 0x2212 = some (.subWW 1#4 2#4) ∧
    decodeTableWord 16 0x2312 = some (.subWIw 1#4 2#4) ∧
    decodeTableWord 24 0x240201 = some (.subRR 0x01#8 0x02#8) ∧
    decodeTableWord 24 0x250201 = some (.subRIr 0x01#8 0x02#8) ∧
    decodeTableWord 24 0x260190 = some (.subRIm 0x01#8 0x90#8) := by
  decide

theorem test_decode_sbc :
    decodeTableWord 16 0x3212 = some (.sbcWW 1#4 2#4) ∧
    decodeTableWord 16 0x3312 = some (.sbcWIw 1#4 2#4) ∧
    decodeTableWord 24 0x340201 = some (.sbcRR 0x01#8 0x02#8) ∧
    decodeTableWord 24 0x350201 = some (.sbcRIr 0x01#8 0x02#8) ∧
    decodeTableWord 24 0x36018A = some (.sbcRIm 0x01#8 0x8A#8) := by
  decide

theorem test_decode_or :
    decodeTableWord 16 0x4212 = some (.orWW 1#4 2#4) ∧
    decodeTableWord 16 0x4302 = some (.orWIw 0#4 2#4) ∧
    decodeTableWord 24 0x440100 = some (.orRR 0x00#8 0x01#8) ∧
    decodeTableWord 24 0x450001 = some (.orRIr 0x01#8 0x00#8) ∧
    decodeTableWord 24 0x460002 = some (.orRIm 0x00#8 0x02#8) := by
  decide

theorem test_decode_and :
    decodeTableWord 16 0x5212 = some (.andWW 1#4 2#4) ∧
    decodeTableWord 16 0x5312 = some (.andWIw 1#4 2#4) ∧
    decodeTableWord 24 0x540201 = some (.andRR 0x01#8 0x02#8) ∧
    decodeTableWord 24 0x550201 = some (.andRIr 0x01#8 0x02#8) ∧
    decodeTableWord 24 0x560125 = some (.andRIm 0x01#8 0x25#8) := by
  decide

theorem test_decode_tcm :
    decodeTableWord 16 0x6212 = some (.tcmWW 1#4 2#4) ∧
    decodeTableWord 16 0x6301 = some (.tcmWIw 0#4 1#4) ∧
    decodeTableWord 24 0x640100 = some (.tcmRR 0x00#8 0x01#8) ∧
    decodeTableWord 24 0x650100 = some (.tcmRIr 0x00#8 0x01#8) ∧
    decodeTableWord 24 0x660034 = some (.tcmRIm 0x00#8 0x34#8) := by
  decide

theorem test_decode_tm :
    decodeTableWord 16 0x7212 = some (.tmWW 1#4 2#4) ∧
    decodeTableWord 16 0x7301 = some (.tmWIw 0#4 1#4) ∧
    decodeTableWord 24 0x740100 = some (.tmRR 0x00#8 0x01#8) ∧
    decodeTableWord 24 0x750100 = some (.tmRIr 0x00#8 0x01#8) ∧
    decodeTableWord 24 0x760054 = some (.tmRIm 0x00#8 0x54#8) := by
  decide

theorem test_decode_cp :
    decodeTableWord 16 0xA212 = some (.cpWW 1#4 2#4) ∧
    decodeTableWord 16 0xA312 = some (.cpWIw 1#4 2#4) ∧
    decodeTableWord 24 0xA40201 = some (.cpRR 0x01#8 0x02#8) ∧
    decodeTableWord 24 0xA50201 = some (.cpRIr 0x01#8 0x02#8) ∧
    decodeTableWord 24 0xA60155 = some (.cpRIm 0x01#8 0x55#8) := by
  decide

theorem test_decode_xor :
    decodeTableWord 16 0xB212 = some (.xorWW 1#4 2#4) ∧
    decodeTableWord 16 0xB301 = some (.xorWIw 0#4 1#4) ∧
    decodeTableWord 24 0xB40100 = some (.xorRR 0x00#8 0x01#8) ∧
    decodeTableWord 24 0xB50100 = some (.xorRIr 0x00#8 0x01#8) ∧
    decodeTableWord 24 0xB60054 = some (.xorRIm 0x00#8 0x54#8) := by
  decide

theorem test_decode_dec :
    decodeTableWord 16 0x0020 = some (.decR 0x20#8) ∧
    decodeTableWord 16 0x01C1 = some (.decIr 0xC1#8) := by
  decide

theorem test_decode_rlc :
    decodeTableWord 16 0x1020 = some (.rlcR 0x20#8) ∧
    decodeTableWord 16 0x1101 = some (.rlcIr 0x01#8) := by
  decide

theorem test_decode_inc :
    decodeTableWord 16 0x2020 = some (.incR 0x20#8) ∧
    decodeTableWord 16 0x21C0 = some (.incIr 0xC0#8) ∧
    decodeTableWord 8 0x0E = some (.incW 0#4) := by
  decide

theorem test_decode_pop :
    decodeTableWord 16 0x5000 = some (.popR 0x00#8) ∧
    decodeTableWord 16 0x5100 = some (.popIr 0x00#8) := by
  decide

theorem test_decode_com :
    decodeTableWord 16 0x6020 = some (.comR 0x20#8) ∧
    decodeTableWord 16 0x61C1 = some (.comIr 0xC1#8) := by
  decide

theorem test_decode_push :
    decodeTableWord 16 0x7040 = some (.pushR 0x40#8) ∧
    decodeTableWord 16 0x7140 = some (.pushIr 0x40#8) := by
  decide

theorem test_decode_rl :
    decodeTableWord 16 0x9020 = some (.rlR 0x20#8) ∧
    decodeTableWord 16 0x9101 = some (.rlIr 0x01#8) := by
  decide

theorem test_decode_clr :
    decodeTableWord 16 0xB000 = some (.clrR 0x00#8) ∧
    decodeTableWord 16 0xB101 = some (.clrIr 0x01#8) := by
  decide

theorem test_decode_rrc :
    decodeTableWord 16 0xC020 = some (.rrcR 0x20#8) ∧
    decodeTableWord 16 0xC101 = some (.rrcIr 0x01#8) := by
  decide

theorem test_decode_sra :
    decodeTableWord 16 0xD020 = some (.sraR 0x20#8) ∧
    decodeTableWord 16 0xD102 = some (.sraIr 0x02#8) := by
  decide

theorem test_decode_rr :
    decodeTableWord 16 0xE020 = some (.rrR 0x20#8) ∧
    decodeTableWord 16 0xE101 = some (.rrIr 0x01#8) := by
  decide

theorem test_decode_jp :
    decodeTableWord 16 0x3000 = some (.jpIpr 0x00#8) ∧
    decodeTableWord 24 0x7D1000 = some (.jpCcDa .c 0x1000#16) := by
  decide

theorem test_decode_jr :
    decodeTableWord 16 0x7B05 = some (.jrCcRa .c 0x05#8) := by
  decide

theorem test_decode_call :
    decodeTableWord 16 0xF4C0 = some (.callIpr 0xC0#8) ∧
    decodeTableWord 24 0xF61521 = some (.callDa 0x1521#16) := by
  decide

theorem test_decode_ld :
    decodeTableWord 16 0x0C10 = some (.ldWIm 0#4 0x10#8) ∧
    decodeTableWord 16 0x0801 = some (.ldWR 0#4 0x01#8) ∧
    decodeTableWord 16 0x0901 = some (.ldRW 0x01#8 0#4) ∧
    decodeTableWord 16 0xC710 = some (.ldWIw 1#4 0#4) ∧
    decodeTableWord 16 0xD701 = some (.ldIwW 0#4 1#4) ∧
    decodeTableWord 24 0xE40100 = some (.ldRR 0x00#8 0x01#8) ∧
    decodeTableWord 24 0xE50002 = some (.ldRIr 0x02#8 0x00#8) ∧
    decodeTableWord 24 0xE6000A = some (.ldRIm 0x00#8 0x0A#8) ∧
    decodeTableWord 24 0xD60010 = some (.ldIrIm 0x00#8 0x10#8) ∧
    decodeTableWord 24 0xF50200 = some (.ldIrR 0x00#8 0x02#8) ∧
    decodeTableWord 24 0x870130 = some (.ldWX 0#4 0x30#8 1#4) ∧
    decodeTableWord 24 0x971030 = some (.ldXW 0x30#8 0#4 1#4) := by
  decide

theorem test_decode_ldc :
    decodeTableWord 16 0xC302 = some (.ldcWIpw 0#4 1#3) ∧
    decodeTableWord 16 0xD302 = some (.ldcIpwW 1#3 0#4) ∧
    decodeTableWord 24 0xE70401 = some (.ldcWXs 0#4 2#3 0x01#8) ∧
    decodeTableWord 24 0xF70401 = some (.ldcXsW 2#3 0x01#8 0#4) ∧
    decodeTableWord 32 0xA7020010 = some (.ldcWXl 0#4 1#3 0x1000#16) ∧
    decodeTableWord 32 0xB7020010 = some (.ldcXlW 1#3 0x1000#16 0#4) ∧
    decodeTableWord 32 0xA7000411 = some (.ldcWDa 0#4 0x1104#16) ∧
    decodeTableWord 32 0xB7000511 = some (.ldcDaW 0x1105#16 0#4) := by
  decide

theorem test_decode_lde :
    decodeTableWord 16 0xC303 = some (.ldeWIpw 0#4 1#3) ∧
    decodeTableWord 16 0xD303 = some (.ldeIpwW 1#3 0#4) ∧
    decodeTableWord 24 0xE70501 = some (.ldeWXs 0#4 2#3 0x01#8) ∧
    decodeTableWord 24 0xF70501 = some (.ldeXsW 2#3 0x01#8 0#4) ∧
    decodeTableWord 32 0xA7030010 = some (.ldeWXl 0#4 1#3 0x1000#16) ∧
    decodeTableWord 32 0xB7030010 = some (.ldeXlW 1#3 0x1000#16 0#4) ∧
    decodeTableWord 32 0xA7010411 = some (.ldeWDa 0#4 0x1104#16) ∧
    decodeTableWord 32 0xB7010511 = some (.ldeDaW 0x1105#16 0#4) := by
  decide

theorem test_decode_load_step :
    decodeTableWord 16 0xE286 = some (.ldcd 8#4 3#3) ∧
    decodeTableWord 16 0xE287 = some (.lded 8#4 3#3) ∧
    decodeTableWord 16 0xE386 = some (.ldci 8#4 3#3) ∧
    decodeTableWord 16 0xE387 = some (.ldei 8#4 3#3) := by
  decide

theorem test_decode_cpu_control :
    decodeTableWord 8 0x6F = some .idle ∧
    decodeTableWord 8 0x7F = some .stop ∧
    decodeTableWord 8 0x8F = some .di ∧
    decodeTableWord 8 0x9F = some .ei ∧
    decodeTableWord 8 0xCF = some .rcf ∧
    decodeTableWord 8 0xDF = some .scf ∧
    decodeTableWord 8 0xEF = some .ccf ∧
    decodeTableWord 8 0xFF = some .nop := by
  decide

theorem test_decode_returns :
    decodeTableWord 8 0xAF = some .ret ∧
    decodeTableWord 8 0xBF = some .iret := by
  decide

/-- The undefined first bytes 0F, 80, D5, FA, 31 (95_test_vectors.md 2.6). -/
theorem test_decode_undefined :
    decodeTableWord 8 0x0F = none ∧ decodeTableWord 8 0x80 = none ∧ decodeTableWord 8 0xD5 = none ∧
    decodeTableWord 8 0xFA = none ∧ decodeTableWord 16 0x3100 = none := by
  decide

/-! ### One step of each instruction -/

/-- 95_test_vectors.md part 2: ADD R1,R2 of 7FH 01H 0. -/
theorem test_addWW :
    shows (exec (.addWW 1#4 2#4) (start [(0xC1#8, 0x7F#8), (0xC2#8, 0x01#8), (0xD5#8, 0x10#8)])) [(0xC1#8, 0x80#8),
    (0xC2#8, 0x01#8)] 0b0011#4 0x0102#16 = true := by
  decide

/-- 95_test_vectors.md part 1: §ADD ADD R1,@R2. -/
theorem test_addWIw :
    shows (exec (.addWIw 1#4 2#4) (start [(0xC1#8, 0x12#8), (0xC2#8, 0x03#8), (0x01#8, 0x21#8), (0x02#8, 0x03#8),
    (0x03#8, 0x0A#8)])) [(0xC1#8, 0x1C#8)] 0b0000#4 0x0102#16 = true := by
  decide

/-- 95_test_vectors.md part 1: §ADD ADD 01H,02H. -/
theorem test_addRR :
    shows (exec (.addRR 0x01#8 0x02#8) (start [(0xC1#8, 0x12#8), (0xC2#8, 0x03#8), (0x01#8, 0x21#8), (0x02#8, 0x03#8),
    (0x03#8, 0x0A#8)])) [(0x01#8, 0x24#8)] 0b0000#4 0x0103#16 = true := by
  decide

/-- 95_test_vectors.md part 1: §ADD ADD 01H,@02H. -/
theorem test_addRIr :
    shows (exec (.addRIr 0x01#8 0x02#8) (start [(0xC1#8, 0x12#8), (0xC2#8, 0x03#8), (0x01#8, 0x21#8), (0x02#8, 0x03#8),
    (0x03#8, 0x0A#8)])) [(0x01#8, 0x2B#8)] 0b0000#4 0x0103#16 = true := by
  decide

/-- 95_test_vectors.md part 1: §ADD ADD 01H,#25H. -/
theorem test_addRIm :
    shows (exec (.addRIm 0x01#8 0x25#8) (start [(0xC1#8, 0x12#8), (0xC2#8, 0x03#8), (0x01#8, 0x21#8), (0x02#8, 0x03#8),
    (0x03#8, 0x0A#8)])) [(0x01#8, 0x46#8)] 0b0000#4 0x0103#16 = true := by
  decide

/-- 95_test_vectors.md part 2: ADC R1,R2 of FFH 00H 1. -/
theorem test_adcWW :
    shows (exec (.adcWW 1#4 2#4) (start [(0xC1#8, 0xFF#8), (0xC2#8, 0x00#8), (0xD5#8, 0x90#8)])) [(0xC1#8, 0x00#8),
    (0xC2#8, 0x00#8)] 0b1100#4 0x0102#16 = true := by
  decide

/-- 95_test_vectors.md part 1: §ADC ADC R1,@R2. -/
theorem test_adcWIw :
    shows (exec (.adcWIw 1#4 2#4) (start [(0xC1#8, 0x10#8), (0xC2#8, 0x03#8), (0x01#8, 0x20#8), (0x02#8, 0x03#8),
    (0x03#8, 0x0A#8), (0xD5#8, 0x80#8)])) [(0xC1#8, 0x1B#8)] 0b0000#4 0x0102#16 = true := by
  decide

/-- 95_test_vectors.md part 1: §ADC ADC 01H,02H. -/
theorem test_adcRR :
    shows (exec (.adcRR 0x01#8 0x02#8) (start [(0xC1#8, 0x10#8), (0xC2#8, 0x03#8), (0x01#8, 0x20#8), (0x02#8, 0x03#8),
    (0x03#8, 0x0A#8), (0xD5#8, 0x80#8)])) [(0x01#8, 0x24#8)] 0b0000#4 0x0103#16 = true := by
  decide

/-- 95_test_vectors.md part 1: §ADC ADC 01H,@02H. -/
theorem test_adcRIr :
    shows (exec (.adcRIr 0x01#8 0x02#8) (start [(0xC1#8, 0x10#8), (0xC2#8, 0x03#8), (0x01#8, 0x20#8), (0x02#8, 0x03#8),
    (0x03#8, 0x0A#8), (0xD5#8, 0x80#8)])) [(0x01#8, 0x2B#8)] 0b0000#4 0x0103#16 = true := by
  decide

/-- 95_test_vectors.md part 1: §ADC ADC 01H,#11H. -/
theorem test_adcRIm :
    shows (exec (.adcRIm 0x01#8 0x11#8) (start [(0xC1#8, 0x10#8), (0xC2#8, 0x03#8), (0x01#8, 0x20#8), (0x02#8, 0x03#8),
    (0x03#8, 0x0A#8), (0xD5#8, 0x80#8)])) [(0x01#8, 0x32#8)] 0b0000#4 0x0103#16 = true := by
  decide

/-- 95_test_vectors.md part 2: SUB R1,R2 of 00H 01H 0. -/
theorem test_subWW :
    shows (exec (.subWW 1#4 2#4) (start [(0xC1#8, 0x00#8), (0xC2#8, 0x01#8), (0xD5#8, 0x10#8)])) [(0xC1#8, 0xFF#8),
    (0xC2#8, 0x01#8)] 0b1010#4 0x0102#16 = true := by
  decide

/-- 95_test_vectors.md part 1: §SUB SUB R1,@R2. -/
theorem test_subWIw :
    shows (exec (.subWIw 1#4 2#4) (start [(0xC1#8, 0x12#8), (0xC2#8, 0x03#8), (0x01#8, 0x21#8), (0x02#8, 0x03#8),
    (0x03#8, 0x0A#8)])) [(0xC1#8, 0x08#8)] 0b0000#4 0x0102#16 = true := by
  decide

/-- 95_test_vectors.md part 1: §SUB SUB 01H,02H. -/
theorem test_subRR :
    shows (exec (.subRR 0x01#8 0x02#8) (start [(0xC1#8, 0x12#8), (0xC2#8, 0x03#8), (0x01#8, 0x21#8), (0x02#8, 0x03#8),
    (0x03#8, 0x0A#8)])) [(0x01#8, 0x1E#8)] 0b0000#4 0x0103#16 = true := by
  decide

/-- 95_test_vectors.md part 1: §SUB SUB 01H,@02H. -/
theorem test_subRIr :
    shows (exec (.subRIr 0x01#8 0x02#8) (start [(0xC1#8, 0x12#8), (0xC2#8, 0x03#8), (0x01#8, 0x21#8), (0x02#8, 0x03#8),
    (0x03#8, 0x0A#8)])) [(0x01#8, 0x17#8)] 0b0000#4 0x0103#16 = true := by
  decide

/-- 95_test_vectors.md part 1: §SUB SUB 01H,#90H. -/
theorem test_subRIm :
    shows (exec (.subRIm 0x01#8 0x90#8) (start [(0xC1#8, 0x12#8), (0xC2#8, 0x03#8), (0x01#8, 0x21#8), (0x02#8, 0x03#8),
    (0x03#8, 0x0A#8)])) [(0x01#8, 0x91#8)] 0b1011#4 0x0103#16 = true := by
  decide

/-- 95_test_vectors.md part 2: SBC R1,R2 of 00H 00H 1. -/
theorem test_sbcWW :
    shows (exec (.sbcWW 1#4 2#4) (start [(0xC1#8, 0x00#8), (0xC2#8, 0x00#8), (0xD5#8, 0x90#8)])) [(0xC1#8, 0xFF#8),
    (0xC2#8, 0x00#8)] 0b1010#4 0x0102#16 = true := by
  decide

/-- 95_test_vectors.md part 1: §SBC SBC R1,@R2. -/
theorem test_sbcWIw :
    shows (exec (.sbcWIw 1#4 2#4) (start [(0xC1#8, 0x10#8), (0xC2#8, 0x03#8), (0x01#8, 0x20#8), (0x02#8, 0x03#8),
    (0x03#8, 0x0A#8), (0xD5#8, 0x80#8)])) [(0xC1#8, 0x05#8), (0xC2#8, 0x03#8), (0x03#8,
    0x0A#8)] 0b0000#4 0x0102#16 = true := by
  decide

/-- 95_test_vectors.md part 1: §SBC SBC 01H,02H. -/
theorem test_sbcRR :
    shows (exec (.sbcRR 0x01#8 0x02#8) (start [(0xC1#8, 0x10#8), (0xC2#8, 0x03#8), (0x01#8, 0x20#8), (0x02#8, 0x03#8),
    (0x03#8, 0x0A#8), (0xD5#8, 0x80#8)])) [(0x01#8, 0x1C#8)] 0b0000#4 0x0103#16 = true := by
  decide

/-- 95_test_vectors.md part 1: §SBC SBC 01H,@02H. -/
theorem test_sbcRIr :
    shows (exec (.sbcRIr 0x01#8 0x02#8) (start [(0xC1#8, 0x10#8), (0xC2#8, 0x03#8), (0x01#8, 0x20#8), (0x02#8, 0x03#8),
    (0x03#8, 0x0A#8), (0xD5#8, 0x80#8)])) [(0x01#8, 0x15#8)] 0b0000#4 0x0103#16 = true := by
  decide

/-- 95_test_vectors.md part 1: §SBC SBC 01H,#8AH. -/
theorem test_sbcRIm :
    shows (exec (.sbcRIm 0x01#8 0x8A#8) (start [(0xC1#8, 0x10#8), (0xC2#8, 0x03#8), (0x01#8, 0x20#8), (0x02#8, 0x03#8),
    (0x03#8, 0x0A#8), (0xD5#8, 0x80#8)])) [(0x01#8, 0x95#8)] 0b1011#4 0x0103#16 = true := by
  decide

/-- 95_test_vectors.md part 2: OR R1,R2 of 00H 00H 1. -/
theorem test_orWW :
    shows (exec (.orWW 1#4 2#4) (start [(0xC1#8, 0x00#8), (0xC2#8, 0x00#8), (0xD5#8, 0x90#8)])) [(0xC1#8, 0x00#8),
    (0xC2#8, 0x00#8)] 0b1100#4 0x0102#16 = true := by
  decide

/-- 95_test_vectors.md part 1: §OR OR R0,@R2. -/
theorem test_orWIw :
    shows (exec (.orWIw 0#4 2#4) (start [(0xC0#8, 0x15#8), (0xC1#8, 0x2A#8), (0xC2#8, 0x01#8), (0x00#8, 0x08#8),
    (0x01#8, 0x37#8), (0x08#8, 0x8A#8)])) [(0xC0#8, 0x37#8), (0xC2#8, 0x01#8)] 0b0000#4 0x0102#16 = true := by
  decide

/-- 95_test_vectors.md part 1: §OR OR 00H,01H. -/
theorem test_orRR :
    shows (exec (.orRR 0x00#8 0x01#8) (start [(0xC0#8, 0x15#8), (0xC1#8, 0x2A#8), (0xC2#8, 0x01#8), (0x00#8, 0x08#8),
    (0x01#8, 0x37#8), (0x08#8, 0x8A#8)])) [(0x00#8, 0x3F#8)] 0b0000#4 0x0103#16 = true := by
  decide

/-- 95_test_vectors.md part 1: §OR OR 01H,@00H. -/
theorem test_orRIr :
    shows (exec (.orRIr 0x01#8 0x00#8) (start [(0xC0#8, 0x15#8), (0xC1#8, 0x2A#8), (0xC2#8, 0x01#8), (0x00#8, 0x08#8),
    (0x01#8, 0x37#8), (0x08#8, 0x8A#8)])) [(0x00#8, 0x08#8), (0x01#8, 0xBF#8)] 0b0010#4 0x0103#16 = true := by
  decide

/-- 95_test_vectors.md part 1: §OR OR 00H,#02H. -/
theorem test_orRIm :
    shows (exec (.orRIm 0x00#8 0x02#8) (start [(0xC0#8, 0x15#8), (0xC1#8, 0x2A#8), (0xC2#8, 0x01#8), (0x00#8, 0x08#8),
    (0x01#8, 0x37#8), (0x08#8, 0x8A#8)])) [(0x00#8, 0x0A#8)] 0b0000#4 0x0103#16 = true := by
  decide

/-- 95_test_vectors.md part 2: AND R1,R2 of F0H 0FH 1. -/
theorem test_andWW :
    shows (exec (.andWW 1#4 2#4) (start [(0xC1#8, 0xF0#8), (0xC2#8, 0x0F#8), (0xD5#8, 0x90#8)])) [(0xC1#8, 0x00#8),
    (0xC2#8, 0x0F#8)] 0b1100#4 0x0102#16 = true := by
  decide

/-- 95_test_vectors.md part 1: §AND AND R1,@R2. -/
theorem test_andWIw :
    shows (exec (.andWIw 1#4 2#4) (start [(0xC1#8, 0x12#8), (0xC2#8, 0x03#8), (0x01#8, 0x21#8), (0x02#8, 0x03#8),
    (0x03#8, 0x0A#8)])) [(0xC1#8, 0x02#8)] 0b0000#4 0x0102#16 = true := by
  decide

/-- 95_test_vectors.md part 1: §AND AND 01H,02H. -/
theorem test_andRR :
    shows (exec (.andRR 0x01#8 0x02#8) (start [(0xC1#8, 0x12#8), (0xC2#8, 0x03#8), (0x01#8, 0x21#8), (0x02#8, 0x03#8),
    (0x03#8, 0x0A#8)])) [(0x01#8, 0x01#8)] 0b0000#4 0x0103#16 = true := by
  decide

/-- 95_test_vectors.md part 1: §AND AND 01H,@02H. -/
theorem test_andRIr :
    shows (exec (.andRIr 0x01#8 0x02#8) (start [(0xC1#8, 0x12#8), (0xC2#8, 0x03#8), (0x01#8, 0x21#8), (0x02#8, 0x03#8),
    (0x03#8, 0x0A#8)])) [(0x01#8, 0x00#8)] 0b0100#4 0x0103#16 = true := by
  decide

/-- 95_test_vectors.md part 1: §AND AND 01H,#25H. -/
theorem test_andRIm :
    shows (exec (.andRIm 0x01#8 0x25#8) (start [(0xC1#8, 0x12#8), (0xC2#8, 0x03#8), (0x01#8, 0x21#8), (0x02#8, 0x03#8),
    (0x03#8, 0x0A#8)])) [(0x01#8, 0x21#8)] 0b0000#4 0x0103#16 = true := by
  decide

/-- 95_test_vectors.md part 2: TCM R1,R2 of F0H F0H 1. -/
theorem test_tcmWW :
    shows (exec (.tcmWW 1#4 2#4) (start [(0xC1#8, 0xF0#8), (0xC2#8, 0xF0#8), (0xD5#8, 0x90#8)])) [(0xC1#8, 0xF0#8),
    (0xC2#8, 0xF0#8)] 0b1100#4 0x0102#16 = true := by
  decide

/-- 95_test_vectors.md part 1: §TCM TCM R0,@R1. -/
theorem test_tcmWIw :
    shows (exec (.tcmWIw 0#4 1#4) (start [(0xC0#8, 0xC7#8), (0xC1#8, 0x02#8), (0xC2#8, 0x12#8), (0x00#8, 0x2B#8),
    (0x01#8, 0x02#8), (0x02#8, 0x23#8)])) [(0xC0#8, 0xC7#8)] 0b0000#4 0x0102#16 = true := by
  decide

/-- 95_test_vectors.md part 1: §TCM TCM 00H,01H. -/
theorem test_tcmRR :
    shows (exec (.tcmRR 0x00#8 0x01#8) (start [(0xC0#8, 0xC7#8), (0xC1#8, 0x02#8), (0xC2#8, 0x12#8), (0x00#8, 0x2B#8),
    (0x01#8, 0x02#8), (0x02#8, 0x23#8)])) [(0x00#8, 0x2B#8)] 0b0100#4 0x0103#16 = true := by
  decide

/-- 95_test_vectors.md part 1: §TCM TCM 00H,@01H. -/
theorem test_tcmRIr :
    shows (exec (.tcmRIr 0x00#8 0x01#8) (start [(0xC0#8, 0xC7#8), (0xC1#8, 0x02#8), (0xC2#8, 0x12#8), (0x00#8, 0x2B#8),
    (0x01#8, 0x02#8), (0x02#8, 0x23#8)])) [(0x00#8, 0x2B#8)] 0b0100#4 0x0103#16 = true := by
  decide

/-- 95_test_vectors.md part 1: §TCM TCM 00H,#34 (read 34H; 90_conflicts.md C12). -/
theorem test_tcmRIm :
    shows (exec (.tcmRIm 0x00#8 0x34#8) (start [(0xC0#8, 0xC7#8), (0xC1#8, 0x02#8), (0xC2#8, 0x12#8), (0x00#8, 0x2B#8),
    (0x01#8, 0x02#8), (0x02#8, 0x23#8)])) [(0x00#8, 0x2B#8)] 0b0000#4 0x0103#16 = true := by
  decide

/-- 95_test_vectors.md part 2: TM R1,R2 of F0H 0FH 1. -/
theorem test_tmWW :
    shows (exec (.tmWW 1#4 2#4) (start [(0xC1#8, 0xF0#8), (0xC2#8, 0x0F#8), (0xD5#8, 0x90#8)])) [(0xC1#8, 0xF0#8),
    (0xC2#8, 0x0F#8)] 0b1100#4 0x0102#16 = true := by
  decide

/-- 95_test_vectors.md part 1: §TM TM R0,@R1. -/
theorem test_tmWIw :
    shows (exec (.tmWIw 0#4 1#4) (start [(0xC0#8, 0xC7#8), (0xC1#8, 0x02#8), (0xC2#8, 0x18#8), (0x00#8, 0x2B#8),
    (0x01#8, 0x02#8), (0x02#8, 0x23#8)])) [(0xC0#8, 0xC7#8)] 0b0000#4 0x0102#16 = true := by
  decide

/-- 95_test_vectors.md part 1: §TM TM 00H,01H. -/
theorem test_tmRR :
    shows (exec (.tmRR 0x00#8 0x01#8) (start [(0xC0#8, 0xC7#8), (0xC1#8, 0x02#8), (0xC2#8, 0x18#8), (0x00#8, 0x2B#8),
    (0x01#8, 0x02#8), (0x02#8, 0x23#8)])) [(0x00#8, 0x2B#8)] 0b0000#4 0x0103#16 = true := by
  decide

/-- 95_test_vectors.md part 1: §TM TM 00H,@01H. -/
theorem test_tmRIr :
    shows (exec (.tmRIr 0x00#8 0x01#8) (start [(0xC0#8, 0xC7#8), (0xC1#8, 0x02#8), (0xC2#8, 0x18#8), (0x00#8, 0x2B#8),
    (0x01#8, 0x02#8), (0x02#8, 0x23#8)])) [(0x00#8, 0x2B#8)] 0b0000#4 0x0103#16 = true := by
  decide

/-- 95_test_vectors.md part 1: §TM TM 00H,#54H. -/
theorem test_tmRIm :
    shows (exec (.tmRIm 0x00#8 0x54#8) (start [(0xC0#8, 0xC7#8), (0xC1#8, 0x02#8), (0xC2#8, 0x18#8), (0x00#8, 0x2B#8),
    (0x01#8, 0x02#8), (0x02#8, 0x23#8)])) [(0x00#8, 0x2B#8)] 0b0100#4 0x0103#16 = true := by
  decide

/-- 95_test_vectors.md part 2: CP R1,R2 of 80H 01H 0. -/
theorem test_cpWW :
    shows (exec (.cpWW 1#4 2#4) (start [(0xC1#8, 0x80#8), (0xC2#8, 0x01#8), (0xD5#8, 0x10#8)])) [(0xC1#8, 0x80#8),
    (0xC2#8, 0x01#8)] 0b0001#4 0x0102#16 = true := by
  decide

/-- CP R1,@R2, hand calculation by R144. -/
theorem test_cpWIw :
    shows (exec (.cpWIw 1#4 2#4) (start [(0xC1#8, 0x05#8), (0xC2#8, 0x20#8), (0x20#8, 0x0A#8)])) [(0xC1#8,
    0x05#8)] 0b1010#4 0x0102#16 = true := by
  decide

/-- CP 01H,02H, hand calculation by R144. -/
theorem test_cpRR :
    shows (exec (.cpRR 0x01#8 0x02#8) (start [(0x01#8, 0x80#8), (0x02#8, 0x01#8)])) [(0x01#8,
    0x80#8)] 0b0001#4 0x0103#16 = true := by
  decide

/-- CP 01H,@02H, hand calculation by R144. -/
theorem test_cpRIr :
    shows (exec (.cpRIr 0x01#8 0x02#8) (start [(0x01#8, 0x7F#8), (0x02#8, 0x03#8), (0x03#8, 0xFF#8)])) [(0x01#8,
    0x7F#8)] 0b1011#4 0x0103#16 = true := by
  decide

/-- CP 01H,#55H, hand calculation by R144. -/
theorem test_cpRIm :
    shows (exec (.cpRIm 0x01#8 0x55#8) (start [(0x01#8, 0x55#8)])) [(0x01#8, 0x55#8)] 0b0100#4 0x0103#16 = true := by
  decide

/-- 95_test_vectors.md part 2: XOR R1,R2 of AAH AAH 1. -/
theorem test_xorWW :
    shows (exec (.xorWW 1#4 2#4) (start [(0xC1#8, 0xAA#8), (0xC2#8, 0xAA#8), (0xD5#8, 0x90#8)])) [(0xC1#8, 0x00#8),
    (0xC2#8, 0xAA#8)] 0b1100#4 0x0102#16 = true := by
  decide

/-- 95_test_vectors.md part 1: §XOR XOR R0,@R1. -/
theorem test_xorWIw :
    shows (exec (.xorWIw 0#4 1#4) (start [(0xC0#8, 0xC7#8), (0xC1#8, 0x02#8), (0xC2#8, 0x18#8), (0x00#8, 0x2B#8),
    (0x01#8, 0x02#8), (0x02#8, 0x23#8)])) [(0xC0#8, 0xE4#8)] 0b0010#4 0x0102#16 = true := by
  decide

/-- 95_test_vectors.md part 1: §XOR XOR 00H,01H. -/
theorem test_xorRR :
    shows (exec (.xorRR 0x00#8 0x01#8) (start [(0xC0#8, 0xC7#8), (0xC1#8, 0x02#8), (0xC2#8, 0x18#8), (0x00#8, 0x2B#8),
    (0x01#8, 0x02#8), (0x02#8, 0x23#8)])) [(0x00#8, 0x29#8)] 0b0000#4 0x0103#16 = true := by
  decide

/-- 95_test_vectors.md part 1: §XOR XOR 00H,@01H. -/
theorem test_xorRIr :
    shows (exec (.xorRIr 0x00#8 0x01#8) (start [(0xC0#8, 0xC7#8), (0xC1#8, 0x02#8), (0xC2#8, 0x18#8), (0x00#8, 0x2B#8),
    (0x01#8, 0x02#8), (0x02#8, 0x23#8)])) [(0x00#8, 0x08#8)] 0b0000#4 0x0103#16 = true := by
  decide

/-- 95_test_vectors.md part 1: §XOR XOR 00H,#54H. -/
theorem test_xorRIm :
    shows (exec (.xorRIm 0x00#8 0x54#8) (start [(0xC0#8, 0xC7#8), (0xC1#8, 0x02#8), (0xC2#8, 0x18#8), (0x00#8, 0x2B#8),
    (0x01#8, 0x02#8), (0x02#8, 0x23#8)])) [(0x00#8, 0x7F#8)] 0b0000#4 0x0103#16 = true := by
  decide

/-- 95_test_vectors.md part 2: DEC 20H of 80H 1. -/
theorem test_decR :
    shows (exec (.decR 0x20#8) (start [(0x20#8, 0x80#8), (0xD5#8, 0x80#8)])) [(0x20#8,
    0x7F#8)] 0b1001#4 0x0102#16 = true := by
  decide

/-- 95_test_vectors.md part 1: §DEC DEC @R1. -/
theorem test_decIr :
    shows (exec (.decIr 0xC1#8) (start [(0xC1#8, 0x03#8), (0x03#8, 0x10#8)])) [(0x03#8,
    0x0F#8)] 0b0000#4 0x0102#16 = true := by
  decide

/-- 95_test_vectors.md part 2: RLC 20H of 80H 0. -/
theorem test_rlcR :
    shows (exec (.rlcR 0x20#8) (start [(0x20#8, 0x80#8)])) [(0x20#8, 0x00#8)] 0b1101#4 0x0102#16 = true := by
  decide

/-- 95_test_vectors.md part 1: §RLC RLC @01H. -/
theorem test_rlcIr :
    shows (exec (.rlcIr 0x01#8) (start [(0x00#8, 0xAA#8), (0x01#8, 0x02#8), (0x02#8, 0x17#8)])) [(0x01#8, 0x02#8),
    (0x02#8, 0x2E#8)] 0b0000#4 0x0102#16 = true := by
  decide

/-- 95_test_vectors.md part 2: INC 20H of 7FH 1. -/
theorem test_incR :
    shows (exec (.incR 0x20#8) (start [(0x20#8, 0x7F#8), (0xD5#8, 0x80#8)])) [(0x20#8,
    0x80#8)] 0b1011#4 0x0102#16 = true := by
  decide

/-- 95_test_vectors.md part 1: §INC INC @R0. -/
theorem test_incIr :
    shows (exec (.incIr 0xC0#8) (start [(0xC0#8, 0x1B#8), (0x00#8, 0x0C#8), (0x1B#8, 0x0F#8)])) [(0xC0#8, 0x1B#8),
    (0x1B#8, 0x10#8)] 0b0000#4 0x0102#16 = true := by
  decide

/-- 95_test_vectors.md part 1: §POP POP 00H. -/
theorem test_popR :
    shows (exec (.popR 0x00#8) (start [(0x00#8, 0x01#8), (0x01#8, 0x1B#8), (0xD9#8, 0xBB#8), (0xBB#8,
    0x55#8)])) [(0x00#8, 0x55#8), (0xD9#8, 0xBC#8)] 0b0000#4 0x0102#16 = true := by
  decide

/-- 95_test_vectors.md part 1: §POP POP @00H. -/
theorem test_popIr :
    shows (exec (.popIr 0x00#8) (start [(0x00#8, 0x01#8), (0x01#8, 0x1B#8), (0xD9#8, 0xBB#8), (0xBB#8,
    0x55#8)])) [(0x00#8, 0x01#8), (0x01#8, 0x55#8), (0xD9#8, 0xBC#8)] 0b0000#4 0x0102#16 = true := by
  decide

/-- 95_test_vectors.md part 2: COM 20H of FFH 1. -/
theorem test_comR :
    shows (exec (.comR 0x20#8) (start [(0x20#8, 0xFF#8), (0xD5#8, 0x80#8)])) [(0x20#8,
    0x00#8)] 0b1100#4 0x0102#16 = true := by
  decide

/-- 95_test_vectors.md part 1: §COM COM @R1. -/
theorem test_comIr :
    shows (exec (.comIr 0xC1#8) (start [(0xC1#8, 0x07#8), (0x07#8, 0xF1#8)])) [(0xC1#8, 0x07#8), (0x07#8,
    0x0E#8)] 0b0000#4 0x0102#16 = true := by
  decide

/-- 95_test_vectors.md part 1: §PUSH PUSH 40H. -/
theorem test_pushR :
    shows (exec (.pushR 0x40#8) (start [(0x40#8, 0x4F#8), (0x4F#8, 0xAA#8), (0xD9#8, 0xC0#8)])) [(0xBF#8, 0x4F#8),
    (0xD9#8, 0xBF#8)] 0b0000#4 0x0102#16 = true := by
  decide

/-- 95_test_vectors.md part 1: §PUSH PUSH @40H. -/
theorem test_pushIr :
    shows (exec (.pushIr 0x40#8) (start [(0x40#8, 0x4F#8), (0x4F#8, 0xAA#8), (0xD9#8, 0xC0#8)])) [(0xBF#8, 0xAA#8),
    (0xD9#8, 0xBF#8)] 0b0000#4 0x0102#16 = true := by
  decide

/-- 95_test_vectors.md part 2: RL 20H of 80H 0. -/
theorem test_rlR :
    shows (exec (.rlR 0x20#8) (start [(0x20#8, 0x80#8)])) [(0x20#8, 0x01#8)] 0b1001#4 0x0102#16 = true := by
  decide

/-- 95_test_vectors.md part 1: §RL RL @01H. -/
theorem test_rlIr :
    shows (exec (.rlIr 0x01#8) (start [(0x00#8, 0xAA#8), (0x01#8, 0x02#8), (0x02#8, 0x17#8)])) [(0x01#8, 0x02#8),
    (0x02#8, 0x2E#8)] 0b0000#4 0x0102#16 = true := by
  decide

/-- 95_test_vectors.md part 1: §CLR CLR 00H. -/
theorem test_clrR :
    shows (exec (.clrR 0x00#8) (start [(0x00#8, 0x4F#8), (0x01#8, 0x02#8), (0x02#8, 0x5E#8)])) [(0x00#8,
    0x00#8)] 0b0000#4 0x0102#16 = true := by
  decide

/-- 95_test_vectors.md part 1: §CLR CLR @01H. -/
theorem test_clrIr :
    shows (exec (.clrIr 0x01#8) (start [(0x00#8, 0x4F#8), (0x01#8, 0x02#8), (0x02#8, 0x5E#8)])) [(0x01#8, 0x02#8),
    (0x02#8, 0x00#8)] 0b0000#4 0x0102#16 = true := by
  decide

/-- 95_test_vectors.md part 2: RRC 20H of 01H 0. -/
theorem test_rrcR :
    shows (exec (.rrcR 0x20#8) (start [(0x20#8, 0x01#8)])) [(0x20#8, 0x00#8)] 0b1100#4 0x0102#16 = true := by
  decide

/-- 95_test_vectors.md part 1: §RRC RRC @01H. -/
theorem test_rrcIr :
    shows (exec (.rrcIr 0x01#8) (start [(0x00#8, 0x55#8), (0x01#8, 0x02#8), (0x02#8, 0x17#8)])) [(0x01#8, 0x02#8),
    (0x02#8, 0x0B#8)] 0b1000#4 0x0102#16 = true := by
  decide

/-- 95_test_vectors.md part 2: SRA 20H of FFH 0. -/
theorem test_sraR :
    shows (exec (.sraR 0x20#8) (start [(0x20#8, 0xFF#8)])) [(0x20#8, 0xFF#8)] 0b1010#4 0x0102#16 = true := by
  decide

/-- 95_test_vectors.md part 1: §SRA SRA @02H. -/
theorem test_sraIr :
    shows (exec (.sraIr 0x02#8) (start [(0x00#8, 0x9A#8), (0x02#8, 0x03#8), (0x03#8, 0xBC#8), (0xD5#8,
    0x80#8)])) [(0x02#8, 0x03#8), (0x03#8, 0xDE#8)] 0b0010#4 0x0102#16 = true := by
  decide

/-- 95_test_vectors.md part 2: RR 20H of 01H 0. -/
theorem test_rrR :
    shows (exec (.rrR 0x20#8) (start [(0x20#8, 0x01#8)])) [(0x20#8, 0x80#8)] 0b1011#4 0x0102#16 = true := by
  decide

/-- 95_test_vectors.md part 1: §RR RR @01H. -/
theorem test_rrIr :
    shows (exec (.rrIr 0x01#8) (start [(0x00#8, 0x31#8), (0x01#8, 0x02#8), (0x02#8, 0x17#8)])) [(0x01#8, 0x02#8),
    (0x02#8, 0x8B#8)] 0b1011#4 0x0102#16 = true := by
  decide

/-- 95_test_vectors.md part 1: §INC INC R0. -/
theorem test_incW :
    shows (exec (.incW 0#4) (start [(0xC0#8, 0x1B#8), (0x00#8, 0x0C#8), (0x1B#8, 0x0F#8)])) [(0xC0#8,
    0x1C#8)] 0b0000#4 0x0101#16 = true := by
  decide

/-- 95_test_vectors.md part 1: §JP JP @00H. -/
theorem test_jpIpr :
    shows (exec (.jpIpr 0x00#8) (start [(0x00#8, 0x01#8), (0x01#8, 0x20#8), (0xD5#8,
    0x80#8)])) [] 0b1000#4 0x0120#16 = true := by
  decide

/-- 95_test_vectors.md part 1: §JP JP C,LABEL_W. -/
theorem test_jpCcDa :
    shows (exec (.jpCcDa .c 0x1000#16) (start [(0x00#8, 0x01#8), (0x01#8, 0x20#8), (0xD5#8,
    0x80#8)])) [] 0b1000#4 0x1000#16 = true := by
  decide

/-- 95_test_vectors.md part 1: §LD LD R0,#10H. -/
theorem test_ldWIm :
    shows (exec (.ldWIm 0#4 0x10#8) (start [(0xC0#8, 0x01#8), (0xC1#8, 0x0A#8), (0x00#8, 0x01#8), (0x01#8, 0x20#8),
    (0x02#8, 0x02#8), (0x3A#8, 0xFF#8)])) [(0xC0#8, 0x10#8)] 0b0000#4 0x0102#16 = true := by
  decide

/-- 95_test_vectors.md part 1: §LD LD R0,01H. -/
theorem test_ldWR :
    shows (exec (.ldWR 0#4 0x01#8) (start [(0xC0#8, 0x01#8), (0xC1#8, 0x0A#8), (0x00#8, 0x01#8), (0x01#8, 0x20#8),
    (0x02#8, 0x02#8), (0x3A#8, 0xFF#8)])) [(0xC0#8, 0x20#8), (0x01#8, 0x20#8)] 0b0000#4 0x0102#16 = true := by
  decide

/-- 95_test_vectors.md part 1: §LD LD 01H,R0. -/
theorem test_ldRW :
    shows (exec (.ldRW 0x01#8 0#4) (start [(0xC0#8, 0x01#8), (0xC1#8, 0x0A#8), (0x00#8, 0x01#8), (0x01#8, 0x20#8),
    (0x02#8, 0x02#8), (0x3A#8, 0xFF#8)])) [(0x01#8, 0x01#8), (0xC0#8, 0x01#8)] 0b0000#4 0x0102#16 = true := by
  decide

/-- 95_test_vectors.md part 1: §LD LD R1,@R0. -/
theorem test_ldWIw :
    shows (exec (.ldWIw 1#4 0#4) (start [(0xC0#8, 0x01#8), (0xC1#8, 0x0A#8), (0x00#8, 0x01#8), (0x01#8, 0x20#8),
    (0x02#8, 0x02#8), (0x3A#8, 0xFF#8)])) [(0xC1#8, 0x20#8), (0xC0#8, 0x01#8)] 0b0000#4 0x0102#16 = true := by
  decide

/-- 95_test_vectors.md part 1: §LD LD @R0,R1. -/
theorem test_ldIwW :
    shows (exec (.ldIwW 0#4 1#4) (start [(0xC0#8, 0x01#8), (0xC1#8, 0x0A#8), (0x00#8, 0x01#8), (0x01#8, 0x20#8),
    (0x02#8, 0x02#8), (0x3A#8, 0xFF#8)])) [(0xC0#8, 0x01#8), (0xC1#8, 0x0A#8), (0x01#8,
    0x0A#8)] 0b0000#4 0x0102#16 = true := by
  decide

/-- 95_test_vectors.md part 1: §LD LD 00H,01H. -/
theorem test_ldRR :
    shows (exec (.ldRR 0x00#8 0x01#8) (start [(0xC0#8, 0x01#8), (0xC1#8, 0x0A#8), (0x00#8, 0x01#8), (0x01#8, 0x20#8),
    (0x02#8, 0x02#8), (0x3A#8, 0xFF#8)])) [(0x00#8, 0x20#8), (0x01#8, 0x20#8)] 0b0000#4 0x0103#16 = true := by
  decide

/-- 95_test_vectors.md part 1: §LD LD 02H,@00H. -/
theorem test_ldRIr :
    shows (exec (.ldRIr 0x02#8 0x00#8) (start [(0xC0#8, 0x01#8), (0xC1#8, 0x0A#8), (0x00#8, 0x01#8), (0x01#8, 0x20#8),
    (0x02#8, 0x02#8), (0x3A#8, 0xFF#8)])) [(0x02#8, 0x20#8), (0x00#8, 0x01#8)] 0b0000#4 0x0103#16 = true := by
  decide

/-- 95_test_vectors.md part 1: §LD LD 00H,#0AH. -/
theorem test_ldRIm :
    shows (exec (.ldRIm 0x00#8 0x0A#8) (start [(0xC0#8, 0x01#8), (0xC1#8, 0x0A#8), (0x00#8, 0x01#8), (0x01#8, 0x20#8),
    (0x02#8, 0x02#8), (0x3A#8, 0xFF#8)])) [(0x00#8, 0x0A#8)] 0b0000#4 0x0103#16 = true := by
  decide

/-- 95_test_vectors.md part 1: §LD LD @00H,#10H. -/
theorem test_ldIrIm :
    shows (exec (.ldIrIm 0x00#8 0x10#8) (start [(0xC0#8, 0x01#8), (0xC1#8, 0x0A#8), (0x00#8, 0x01#8), (0x01#8, 0x20#8),
    (0x02#8, 0x02#8), (0x3A#8, 0xFF#8)])) [(0x00#8, 0x01#8), (0x01#8, 0x10#8)] 0b0000#4 0x0103#16 = true := by
  decide

/-- 95_test_vectors.md part 1: §LD LD @00H,02H. -/
theorem test_ldIrR :
    shows (exec (.ldIrR 0x00#8 0x02#8) (start [(0xC0#8, 0x01#8), (0xC1#8, 0x0A#8), (0x00#8, 0x01#8), (0x01#8, 0x20#8),
    (0x02#8, 0x02#8), (0x3A#8, 0xFF#8)])) [(0x00#8, 0x01#8), (0x01#8, 0x02#8), (0x02#8,
    0x02#8)] 0b0000#4 0x0103#16 = true := by
  decide

/-- 95_test_vectors.md part 1: §LD LD R0,#LOOP[R1]. -/
theorem test_ldWX :
    shows (exec (.ldWX 0#4 0x30#8 1#4) (start [(0xC0#8, 0x01#8), (0xC1#8, 0x0A#8), (0x00#8, 0x01#8), (0x01#8, 0x20#8),
    (0x02#8, 0x02#8), (0x3A#8, 0xFF#8)])) [(0xC0#8, 0xFF#8), (0xC1#8, 0x0A#8)] 0b0000#4 0x0103#16 = true := by
  decide

/-- 95_test_vectors.md part 1: §LD LD #LOOP[R0],R1. -/
theorem test_ldXW :
    shows (exec (.ldXW 0x30#8 0#4 1#4) (start [(0xC0#8, 0x01#8), (0xC1#8, 0x0A#8), (0x00#8, 0x01#8), (0x01#8, 0x20#8),
    (0x02#8, 0x02#8), (0x3A#8, 0xFF#8)])) [(0x31#8, 0x0A#8), (0xC0#8, 0x01#8), (0xC1#8,
    0x0A#8)] 0b0000#4 0x0103#16 = true := by
  decide

/-- 95_test_vectors.md part 1: §LDC/LDE LDC R0,@RR2. -/
theorem test_ldcWIpw :
    shows (exec (.ldcWIpw 0#4 1#3) (withProgram [(0x0061, 0xAA#8), (0x0061, 0xAA#8), (0x0103, 0x4F#8), (0x0104,
    0x1A#8), (0x0105, 0x6D#8), (0x1104, 0x88#8)] false (start [(0xC0#8, 0x11#8), (0xC1#8, 0x34#8), (0xC2#8,
    0x01#8), (0xC3#8, 0x04#8), (0xC4#8, 0x00#8), (0xC5#8, 0x60#8)]))) [(0xC0#8, 0x1A#8), (0xC2#8, 0x01#8), (0xC3#8,
    0x04#8)] 0b0000#4 0x0102#16 = true := by
  decide

/-- 95_test_vectors.md part 1: §LDC/LDE LDC @RR2,R0 (starred). -/
theorem test_ldcIpwW :
    showsCell (exec (.ldcIpwW 1#3 0#4) (withProgram [(0x0061, 0xAA#8), (0x0061, 0xAA#8), (0x0103, 0x4F#8), (0x0104,
    0x1A#8), (0x0105, 0x6D#8), (0x1104, 0x88#8)] true (start [(0xC0#8, 0x11#8), (0xC1#8, 0x34#8), (0xC2#8, 0x01#8),
    (0xC3#8, 0x04#8), (0xC4#8, 0x00#8), (0xC5#8, 0x60#8)]))) .program 0x0104 0x11#8 = true := by
  decide

/-- 95_test_vectors.md part 1: §LDC/LDE LDC R0,#01H[RR4]. -/
theorem test_ldcWXs :
    shows (exec (.ldcWXs 0#4 2#3 0x01#8) (withProgram [(0x0061, 0xAA#8), (0x0061, 0xAA#8), (0x0103, 0x4F#8), (0x0104,
    0x1A#8), (0x0105, 0x6D#8), (0x1104, 0x88#8)] false (start [(0xC0#8, 0x11#8), (0xC1#8, 0x34#8), (0xC2#8,
    0x01#8), (0xC3#8, 0x04#8), (0xC4#8, 0x00#8), (0xC5#8, 0x60#8)]))) [(0xC0#8, 0xAA#8)] 0b0000#4 0x0103#16 = true := by
  decide

/-- 95_test_vectors.md part 1: §LDC/LDE LDC #01H[RR4],R0 (starred). -/
theorem test_ldcXsW :
    showsCell (exec (.ldcXsW 2#3 0x01#8 0#4) (withProgram [(0x0061, 0xAA#8), (0x0061, 0xAA#8), (0x0103, 0x4F#8),
    (0x0104, 0x1A#8), (0x0105, 0x6D#8), (0x1104, 0x88#8)] true (start [(0xC0#8, 0x11#8), (0xC1#8, 0x34#8), (0xC2#8,
    0x01#8), (0xC3#8, 0x04#8), (0xC4#8, 0x00#8), (0xC5#8, 0x60#8)]))) .program 0x0061 0x11#8 = true := by
  decide

/-- 95_test_vectors.md part 1: §LDC/LDE LDC R0,#1000H[RR2]. -/
theorem test_ldcWXl :
    shows (exec (.ldcWXl 0#4 1#3 0x1000#16) (withProgram [(0x0061, 0xAA#8), (0x0061, 0xAA#8), (0x0103, 0x4F#8),
    (0x0104, 0x1A#8), (0x0105, 0x6D#8), (0x1104, 0x88#8)] false (start [(0xC0#8, 0x11#8), (0xC1#8, 0x34#8),
    (0xC2#8, 0x01#8), (0xC3#8, 0x04#8), (0xC4#8, 0x00#8), (0xC5#8, 0x60#8)]))) [(0xC0#8,
    0x88#8)] 0b0000#4 0x0104#16 = true := by
  decide

/-- 95_test_vectors.md part 1: §LDC/LDE LDC R0,1104H. -/
theorem test_ldcWDa :
    shows (exec (.ldcWDa 0#4 0x1104#16) (withProgram [(0x0061, 0xAA#8), (0x0061, 0xAA#8), (0x0103, 0x4F#8), (0x0104,
    0x1A#8), (0x0105, 0x6D#8), (0x1104, 0x88#8)] false (start [(0xC0#8, 0x11#8), (0xC1#8, 0x34#8), (0xC2#8,
    0x01#8), (0xC3#8, 0x04#8), (0xC4#8, 0x00#8), (0xC5#8, 0x60#8)]))) [(0xC0#8, 0x88#8)] 0b0000#4 0x0104#16 = true := by
  decide

/-- 95_test_vectors.md part 1: §LDC/LDE LDC 1105H,R0 (starred). -/
theorem test_ldcDaW :
    showsCell (exec (.ldcDaW 0x1105#16 0#4) (withProgram [(0x0061, 0xAA#8), (0x0061, 0xAA#8), (0x0103, 0x4F#8),
    (0x0104, 0x1A#8), (0x0105, 0x6D#8), (0x1104, 0x88#8)] true (start [(0xC0#8, 0x11#8), (0xC1#8, 0x34#8), (0xC2#8,
    0x01#8), (0xC3#8, 0x04#8), (0xC4#8, 0x00#8), (0xC5#8, 0x60#8)]))) .program 0x1105 0x11#8 = true := by
  decide

/-- 95_test_vectors.md part 1: §LDC/LDE LDE R0,@RR2. -/
theorem test_ldeWIpw :
    shows (exec (.ldeWIpw 0#4 1#3) (withData [(0x0061, 0xBB#8), (0x0061, 0xBB#8), (0x0103, 0x5F#8), (0x0104, 0x2A#8),
    (0x0105, 0x7D#8), (0x1104, 0x98#8)] (start [(0xC0#8, 0x11#8), (0xC1#8, 0x34#8), (0xC2#8, 0x01#8), (0xC3#8,
    0x04#8), (0xC4#8, 0x00#8), (0xC5#8, 0x60#8)]))) [(0xC0#8, 0x2A#8)] 0b0000#4 0x0102#16 = true := by
  decide

/-- 95_test_vectors.md part 1: §LDC/LDE LDE @RR2,R0. -/
theorem test_ldeIpwW :
    showsCell (exec (.ldeIpwW 1#3 0#4) (withData [(0x0061, 0xBB#8), (0x0061, 0xBB#8), (0x0103, 0x5F#8), (0x0104,
    0x2A#8), (0x0105, 0x7D#8), (0x1104, 0x98#8)] (start [(0xC0#8, 0x11#8), (0xC1#8, 0x34#8), (0xC2#8, 0x01#8),
    (0xC3#8, 0x04#8), (0xC4#8, 0x00#8), (0xC5#8, 0x60#8)]))) .data 0x0104 0x11#8 = true := by
  decide

/-- 95_test_vectors.md part 1: §LDC/LDE LDE R0,#01H[RR4]. -/
theorem test_ldeWXs :
    shows (exec (.ldeWXs 0#4 2#3 0x01#8) (withData [(0x0061, 0xBB#8), (0x0061, 0xBB#8), (0x0103, 0x5F#8), (0x0104,
    0x2A#8), (0x0105, 0x7D#8), (0x1104, 0x98#8)] (start [(0xC0#8, 0x11#8), (0xC1#8, 0x34#8), (0xC2#8, 0x01#8),
    (0xC3#8, 0x04#8), (0xC4#8, 0x00#8), (0xC5#8, 0x60#8)]))) [(0xC0#8, 0xBB#8)] 0b0000#4 0x0103#16 = true := by
  decide

/-- 95_test_vectors.md part 1: §LDC/LDE LDE #01H[RR4],R0. -/
theorem test_ldeXsW :
    showsCell (exec (.ldeXsW 2#3 0x01#8 0#4) (withData [(0x0061, 0xBB#8), (0x0061, 0xBB#8), (0x0103, 0x5F#8), (0x0104,
    0x2A#8), (0x0105, 0x7D#8), (0x1104, 0x98#8)] (start [(0xC0#8, 0x11#8), (0xC1#8, 0x34#8), (0xC2#8, 0x01#8),
    (0xC3#8, 0x04#8), (0xC4#8, 0x00#8), (0xC5#8, 0x60#8)]))) .data 0x0061 0x11#8 = true := by
  decide

/-- 95_test_vectors.md part 1: §LDC/LDE LDE R0,#1000H[RR2]. -/
theorem test_ldeWXl :
    shows (exec (.ldeWXl 0#4 1#3 0x1000#16) (withData [(0x0061, 0xBB#8), (0x0061, 0xBB#8), (0x0103, 0x5F#8), (0x0104,
    0x2A#8), (0x0105, 0x7D#8), (0x1104, 0x98#8)] (start [(0xC0#8, 0x11#8), (0xC1#8, 0x34#8), (0xC2#8, 0x01#8),
    (0xC3#8, 0x04#8), (0xC4#8, 0x00#8), (0xC5#8, 0x60#8)]))) [(0xC0#8, 0x98#8)] 0b0000#4 0x0104#16 = true := by
  decide

/-- 95_test_vectors.md part 1: §LDC/LDE LDE R0,1104H. -/
theorem test_ldeWDa :
    shows (exec (.ldeWDa 0#4 0x1104#16) (withData [(0x0061, 0xBB#8), (0x0061, 0xBB#8), (0x0103, 0x5F#8), (0x0104,
    0x2A#8), (0x0105, 0x7D#8), (0x1104, 0x98#8)] (start [(0xC0#8, 0x11#8), (0xC1#8, 0x34#8), (0xC2#8, 0x01#8),
    (0xC3#8, 0x04#8), (0xC4#8, 0x00#8), (0xC5#8, 0x60#8)]))) [(0xC0#8, 0x98#8)] 0b0000#4 0x0104#16 = true := by
  decide

/-- 95_test_vectors.md part 1: §LDC/LDE LDE 1105H,R0. -/
theorem test_ldeDaW :
    showsCell (exec (.ldeDaW 0x1105#16 0#4) (withData [(0x0061, 0xBB#8), (0x0061, 0xBB#8), (0x0103, 0x5F#8), (0x0104,
    0x2A#8), (0x0105, 0x7D#8), (0x1104, 0x98#8), (0x1105, 0x00#8)] (start [(0xC0#8, 0x11#8), (0xC1#8, 0x34#8),
    (0xC2#8, 0x01#8), (0xC3#8, 0x04#8), (0xC4#8, 0x00#8), (0xC5#8, 0x60#8)]))) .data 0x1105 0x11#8 = true := by
  decide

/-- 95_test_vectors.md part 1: §LDCD/LDED LDCD R8,@RR6. -/
theorem test_ldcd :
    shows (exec (.ldcd 8#4 3#3) (withProgram [(0x1033, 0xCD#8), (0x1033, 0xCD#8)] false (start [(0xC6#8, 0x10#8),
    (0xC7#8, 0x33#8), (0xC8#8, 0x12#8)]))) [(0xC8#8, 0xCD#8), (0xC6#8, 0x10#8), (0xC7#8,
    0x32#8)] 0b0000#4 0x0102#16 = true := by
  decide

/-- 95_test_vectors.md part 1: §LDCD/LDED LDED R8,@RR6. -/
theorem test_lded :
    shows (exec (.lded 8#4 3#3) (withData [(0x1033, 0xDD#8), (0x1033, 0xDD#8)] (start [(0xC6#8, 0x10#8), (0xC7#8,
    0x33#8), (0xC8#8, 0x12#8)]))) [(0xC8#8, 0xDD#8), (0xC6#8, 0x10#8), (0xC7#8, 0x32#8)] 0b0000#4 0x0102#16 = true := by
  decide

/-- 95_test_vectors.md part 1: §LDCI/LDEI LDCI R8,@RR6. -/
theorem test_ldci :
    shows (exec (.ldci 8#4 3#3) (withProgram [(0x1033, 0xCD#8), (0x1033, 0xCD#8), (0x1034, 0xC5#8)] false
    (start [(0xC6#8, 0x10#8), (0xC7#8, 0x33#8), (0xC8#8, 0x12#8)]))) [(0xC8#8, 0xCD#8), (0xC6#8, 0x10#8), (0xC7#8,
    0x34#8)] 0b0000#4 0x0102#16 = true := by
  decide

/-- 95_test_vectors.md part 1: §LDCI/LDEI LDEI R8,@RR6. -/
theorem test_ldei :
    shows (exec (.ldei 8#4 3#3) (withData [(0x1033, 0xDD#8), (0x1033, 0xDD#8), (0x1034, 0xD5#8)] (start [(0xC6#8,
    0x10#8), (0xC7#8, 0x33#8), (0xC8#8, 0x12#8)]))) [(0xC8#8, 0xDD#8), (0xC6#8, 0x10#8), (0xC7#8,
    0x34#8)] 0b0000#4 0x0102#16 = true := by
  decide

/-- 95_test_vectors.md part 1: §DI DI. -/
theorem test_di :
    shows (exec .di (start [(0xDF#8, 0x04#8)])) [(0xDF#8, 0x00#8)] 0b0000#4 0x0101#16 = true := by
  decide

/-- 95_test_vectors.md part 1: §EI EI. -/
theorem test_ei :
    shows (exec .ei (start [(0xDF#8, 0x00#8)])) [(0xDF#8, 0x04#8)] 0b0000#4 0x0101#16 = true := by
  decide

/-- 95_test_vectors.md part 1: §RCF RCF. -/
theorem test_rcf :
    shows (exec .rcf (start [(0xD5#8, 0x80#8)])) [] 0b0000#4 0x0101#16 = true := by
  decide

/-- 95_test_vectors.md part 1: §SCF SCF. -/
theorem test_scf :
    shows (exec .scf (start [])) [] 0b1000#4 0x0101#16 = true := by
  decide

/-- 95_test_vectors.md part 1: §CCF CCF. -/
theorem test_ccf :
    shows (exec .ccf (start [])) [] 0b1000#4 0x0101#16 = true := by
  decide


/-! ### Program control, CPU control, stack and the remaining forms -/

/-- 95_test_vectors.md 2.4: 7B 05, C = 1, at 1FF0H. -/
theorem test_jrCcRa :
    shows (exec (.jrCcRa .c 0x05#8) { start [(0xD5#8, 0x80#8)] with pc := 0x1FF0#16 }) [] 0b1000#4 0x1FF7#16 = true := by
  decide

/-- 95_test_vectors.md 2.4: 8B 80, a displacement of -128 from the next instruction. -/
theorem test_jrCcRa_back : shows (exec (.jrCcRa .t 0x80#8) (start [])) [] 0b0000#4 0x0082#16 = true := by decide

/-- 95_test_vectors.md 1.5: CALL 1521H at 1A47H, SP = B2H. -/
theorem test_callDa :
    shows (exec (.callDa 0x1521#16) { start [(0xD9#8, 0xB2#8)] with pc := 0x1A47#16 })
      [(0xD9#8, 0xB0#8), (0xB0#8, 0x1A#8), (0xB1#8, 0x4A#8)] 0b0000#4 0x1521#16 = true := by
  decide

/-- 95_test_vectors.md 1.5: CALL @RR0 at 1A47H. -/
theorem test_callIpr :
    shows (exec (.callIpr 0xC0#8)
      { start [(0xC0#8, 0x15#8), (0xC1#8, 0x21#8), (0xD9#8, 0xB2#8)] with pc := 0x1A47#16 })
      [(0xD9#8, 0xB0#8), (0xB0#8, 0x1A#8), (0xB1#8, 0x49#8)] 0b0000#4 0x1521#16 = true := by
  decide

/-- 95_test_vectors.md 2.4: F4 B0, the pair is the two stack bytes; F4 C1, an odd pair. -/
theorem test_callIpr_faults :
    faultOf (exec (.callIpr 0xB0#8) (start [(0xB0#8, 0x01#8), (0xB1#8, 0x02#8), (0xD9#8, 0xB2#8)]))
      = some (.unspecifiedOrder .callPair) ∧
    faultOf (exec (.callIpr 0xC1#8) (start [(0xD9#8, 0xB2#8)])) = some (.oddPair 0xC1#8) := by
  decide

/-- 95_test_vectors.md 2.4: RET. -/
theorem test_ret :
    shows (exec .ret (start [(0xD9#8, 0xBC#8), (0xBC#8, 0x10#8), (0xBD#8, 0x1A#8)])) [(0xD9#8, 0xBE#8)] 0b0000#4 0x101A#16
      = true := by
  decide

/-- 95_test_vectors.md 2.4: IRET, SYM = 83H, the low nibble of the popped FLAGS discarded. -/
theorem test_iret :
    shows (exec .iret (start [(0xD9#8, 0xBD#8), (0xBD#8, 0x4F#8), (0xBE#8, 0x1F#8), (0xBF#8, 0xFE#8), (0xDF#8, 0x83#8)]))
      [(0xD9#8, 0xC0#8), (0xDF#8, 0x87#8)] 0b0100#4 0x1FFE#16 = true := by
  decide

/-- 95_test_vectors.md 2.7: IDLE, STOP, NOP. -/
theorem test_idle_stop_nop :
    shows (exec .idle (start [])) [] 0b0000#4 0x0101#16 = true ∧
    shows (exec .stop (start [])) [] 0b0000#4 0x0101#16 = true ∧
    shows (exec .nop (start [])) [] 0b0000#4 0x0101#16 = true := by
  decide

/-- The run mode after an outcome. -/
def modeOf (o : Host.Outcome State Fault Refusal) : Option RunMode :=
  match o with
  | .next t => some t.mode
  | _ => none

/-- 95_test_vectors.md 2.7: the run modes IDLE and STOP. -/
theorem test_halted_modes :
    modeOf (exec .idle (start [])) = some .idle ∧ modeOf (exec .stop (start [])) = some .stop := by
  decide

/-- LDC 1000H[RR2],R0 on a part that supports it, hand calculation by R112 and R114: 1000H + 0104H. -/
theorem test_ldcXlW :
    showsCell (exec (.ldcXlW 1#3 0x1000#16 0#4)
      (withProgram [] true (start [(0xC0#8, 0x11#8), (0xC2#8, 0x01#8), (0xC3#8, 0x04#8)]))) .program 0x1104 0x11#8 = true := by
  decide

/-- LDE 1000H[RR2],R0, hand calculation by R112 and R115. -/
theorem test_ldeXlW :
    showsCell (exec (.ldeXlW 1#3 0x1000#16 0#4)
      (withData [(0x1104, 0x98#8)] (start [(0xC0#8, 0x11#8), (0xC2#8, 0x01#8), (0xC3#8, 0x04#8)])))
      .data 0x1104 0x11#8 = true := by
  decide

/-! ### Faults (95_test_vectors.md 2.4 to 2.6) -/

theorem test_jpIpr_odd : faultOf (exec (.jpIpr 0x01#8) (start [])) = some (.oddPair 0x01#8) := by decide

theorem test_unmodelled_register :
    faultOf (exec (.ldWR 0#4 0xE0#8) (start [])) = some (.unmodelledRegister 0xE0#8) ∧
    faultOf (exec (.pushR 0x40#8) (start [(0xD9#8, 0x00#8), (0x40#8, 0x12#8)])) = some (.unmodelledRegister 0xFF#8) := by
  decide

theorem test_address_out_of_range :
    faultOf (exec (.ldcWXs 0#4 2#3 0x80#8) (start [(0xC5#8, 0x60#8)])) = some (.addressOutOfRange .program (-32)) ∧
    faultOf (exec (.ldcWXl 0#4 1#3 0x1000#16) (start [(0xC2#8, 0x10#8)])) = some (.addressOutOfRange .program 0x2000) ∧
    faultOf (exec (.ldeWIpw 2#4 1#3) (start [(0xC2#8, 0x01#8), (0xC3#8, 0x04#8)]))
      = some (.addressOutOfRange .data 0x0104) := by
  decide

theorem test_unsupported_store :
    faultOf (exec (.ldcIpwW 1#3 0#4) (start [(0xC2#8, 0x01#8), (0xC3#8, 0x04#8)])) = some (.unsupportedStore 0x0104) := by
  decide

theorem test_unspecified_order :
    faultOf (exec (.ldci 6#4 3#3) (start [])) = some (.unspecifiedOrder .pairDestination) ∧
    faultOf (exec (.ldci 7#4 3#3) (start [])) = some (.unspecifiedOrder .pairDestination) ∧
    faultOf (exec (.pushR 0xD9#8) (start [(0xD9#8, 0x80#8)])) = some (.unspecifiedOrder .pushOfSp) ∧
    faultOf (exec (.popR 0xD9#8) (start [(0xD9#8, 0x80#8)])) = some (.unspecifiedOrder .popOfSp) := by
  decide

theorem test_flags_destination :
    faultOf (exec (.andRIm 0xD5#8 0x0F#8) (start [])) = some (.unpredictable .flagsDestination) ∧
    faultOf (exec (.incIr 0x30#8) (start [(0x30#8, 0xD5#8)])) = some (.unpredictable .flagsDestination) ∧
    shows (exec (.ldRIm 0xD5#8 0x5F#8) (start [])) [] 0b0101#4 0x0103#16 = true ∧
    shows (exec (.popR 0xD5#8) (start [(0x80#8, 0x6F#8), (0xD9#8, 0x80#8)])) [(0xD9#8, 0x81#8)] 0b0110#4 0x0102#16
      = true := by
  decide

/-! ### Steps -/

/-- 95_test_vectors.md part 3, program 1, step 1: CP R1,R2 of 05H and 0AH, fetched at 0100H. -/
theorem test_step_cp :
    shows (step ((start [(0xC1#8, 0x05#8), (0xC2#8, 0x0A#8)]).withFetchWord 16 0xA212)) [(0xC1#8, 0x05#8)] 0b1010#4 0x0102#16
      = true := by
  decide

/-- 95_test_vectors.md 2.6: an undefined first byte at 0100H. -/
theorem test_step_undefined :
    faultOf (step (State.reset.withFetchWord 8 0x0F)) = some (.undefinedOpcode 0x0100#16 0x0F#8) := by
  decide

/-- 95_test_vectors.md 2.4: the fetch at 2000H. -/
theorem test_step_past_the_end :
    faultOf (step { State.reset with pc := 0x2000#16 }) = some (.addressOutOfRange .program 0x2000) := by
  decide

/-- An interrupt entry, hand calculation by 60_exceptions.md R226 and R228: pc 0123H, SP C0H, vector 0234H. -/
theorem test_step_interrupt :
    shows (step { start [(0xD9#8, 0xC0#8), (0xD5#8, 0xA0#8), (0xDF#8, 0x04#8)] with
        pc := 0x0123#16, inputs := [⟨false, .onChip⟩], progMem := ⟨[(0, 0x02#8), (1, 0x34#8)]⟩ })
      [(0xD9#8, 0xBD#8), (0xBF#8, 0x23#8), (0xBE#8, 0x01#8), (0xDF#8, 0x00#8)] 0b1010#4 0x0234#16 = true := by
  decide

/-- Stop mode is not released by an on-chip request (R237), Idle mode is, unpredictably while SYM.2 = 0 (R236); reset leaves
both (R233). -/
theorem test_step_halted :
    modeOf (step { State.reset with mode := .stop, inputs := [⟨false, .onChip⟩] }) = some .stop ∧
    faultOf (step { State.reset with mode := .idle, inputs := [⟨false, .onChip⟩] }) = some (.unpredictable .idleReleased) ∧
    modeOf (step { State.reset with mode := .stop, inputs := [⟨true, .none⟩] }) = some .run := by
  decide

/-- The cycle counts that depend on the flags (70_reset_and_hazards.md R260). -/
theorem test_cycles :
    instrCycles ⟨true, false, false, false⟩ (.jpCcDa .c 0x1000#16) = 12 ∧
    instrCycles ⟨false, false, false, false⟩ (.jpCcDa .c 0x1000#16) = 10 ∧ instrCycles ⟨false, false, false, false⟩ .idle = 3 := by
  decide

/-! ### Witnesses: states and operands that meet the hypotheses of the statements -/

/-- Two registers to work on, working and plain: R0 = 05H, R15 = 80H, register 00H = 01H, 01H = 7FH, 02H = 20H, BFH = 03H;
SP = C0H. -/
def sample : State :=
  start [(0xC0#8, 0x05#8), (0xCF#8, 0x80#8), (0x00#8, 0x01#8), (0x01#8, 0x7F#8), (0x02#8, 0x20#8), (0xBF#8, 0x03#8),
    (0xD9#8, 0xC0#8)]

/-- DecodeOfEncode. -/
theorem witness_DecodeOfEncode :
    (Instr.ldcWXl 15#4 7#3 0xFFFF#16).longIndexPairOk = true ∧ (Instr.addWW 0#4 15#4).longIndexPairOk = true := by decide

/-- EncodeOfDecode. -/
theorem witness_EncodeOfDecode : decode [0x02#8, 0x0F#8, 0xAA#8] = .ok (.addWW 0#4 15#4, [0xAA#8]) := by rfl

/-- UndefinedFirstBytes, the last clause. -/
theorem witness_UndefinedFirstBytes :
    let s : State := { State.reset with progMem := ⟨[(0x0100, 0x5F#8)]⟩ }
    s.mode = .run ∧ s.input.reset = false ∧ (s.sym2 && s.input.irq.pending) = false ∧
      s.programByte s.pc.toNat = some 0x5F#8 := by decide

/-- StepRunsDecodedInstruction: a four-byte instruction at the last four addresses of program memory. -/
theorem witness_StepRunsDecodedInstruction :
    let i : Instr := .ldcWDa 0#4 0x1FFF#16
    let s : State := { State.reset with
      pc := 0x1FFC#16, progMem := ⟨[(0x1FFC, 0xA7#8), (0x1FFD, 0x00#8), (0x1FFF, 0x1F#8)]⟩ }
    s.mode = .run ∧ s.input.reset = false ∧ (s.sym2 && s.input.irq.pending) = false ∧ i.longIndexPairOk = true ∧
      s.holdsBytes s.pc.toNat (encode i) := by
  refine ⟨rfl, rfl, rfl, rfl, fun k h => ?_⟩
  have : k < 4 := h
  interval_cases k <;> rfl

/-- FetchOutsideProgramMemory: the first address outside, and a two-byte instruction at the last address inside. -/
theorem witness_FetchOutsideProgramMemory :
    (let s : State := { State.reset with pc := 0x2000#16 };
      s.mode = .run ∧ s.input.reset = false ∧ (s.sym2 && s.input.irq.pending) = false ∧ s.cfg.progSize ≤ s.pc.toNat) ∧
    (let s : State := { State.reset with pc := 0x1FFF#16, progMem := ⟨[(0x1FFF, 0x02#8)]⟩ };
      s.mode = .run ∧ s.input.reset = false ∧ (s.sym2 && s.input.irq.pending) = false ∧
        s.programByte s.pc.toNat = (encode (.addWW 0#4 1#4)).head? ∧
        s.cfg.progSize < s.pc.toNat + Instr.length (.addWW 0#4 1#4)) := by
  decide

/-- ResetInputResets, in Stop mode. -/
theorem witness_ResetInputResets :
    State.input { State.reset with mode := .stop, inputs := [⟨true, .external⟩] } = ⟨true, .external⟩ := by decide

/-- InterruptIsAccepted. -/
theorem witness_InterruptIsAccepted :
    let s : State := { State.reset with sym := 0x04#8, inputs := [⟨false, .onChip⟩] }
    s.mode = .run ∧ s.input.reset = false ∧ s.sym2 = true ∧ s.input.irq.pending = true := by decide

/-- InterruptEntryEffect and EntryThenReturnRestores: stack bytes at the ends of the general registers. -/
theorem witness_InterruptEntryEffect :
    let s : State := { sample with progMem := ⟨[(0, 0x02#8), (1, 0x34#8)]⟩ }
    s.isPlain (s.sp - 1) ∧ s.isPlain (s.sp - 2) ∧ s.isPlain (s.sp - 3) ∧
      s.programByte s.cfg.irqVector = some 0x02#8 ∧ s.programByte (s.cfg.irqVector + 1) = some 0x34#8 := by decide

theorem witness_EntryThenReturnRestores :
    let s : State := { sample with sp := 0x03#8 }
    s.isPlain (s.sp - 1) ∧ s.isPlain (s.sp - 2) ∧ s.isPlain (s.sp - 3) ∧
      (match interruptEntry s with | .ok _ => true | .error _ => false) = true := by decide

/-- IdleBoundary, its three clauses. -/
theorem witness_IdleBoundary :
    (let s : State := { State.reset with mode := .idle, sym := 0x04#8, inputs := [⟨false, .onChip⟩] };
      s.mode = .idle ∧ s.input.reset = false ∧ s.input.irq.pending = true ∧ s.sym2 = true) ∧
    (let s : State := { State.reset with mode := .idle, inputs := [⟨false, .external⟩] };
      s.input.irq.pending = true ∧ s.sym2 = false ∧ s.cfg.wakeIrqDisabled = none) ∧
    (let s : State := { State.reset with mode := .idle };
      s.input.reset = false ∧ s.input.irq.pending = false) := by decide

/-- StopBoundary, its three clauses; an on-chip request is no external one. -/
theorem witness_StopBoundary :
    (let s : State := { State.reset with mode := .stop, sym := 0x04#8, inputs := [⟨false, .external⟩] };
      s.mode = .stop ∧ s.input.reset = false ∧ s.input.irq = .external ∧ s.sym2 = true) ∧
    (let s : State := { State.reset with mode := .stop, inputs := [⟨false, .external⟩] };
      s.input.irq = .external ∧ s.sym2 = false ∧ s.cfg.wakeIrqDisabled = none) ∧
    (let s : State := { State.reset with mode := .stop, sym := 0x04#8, inputs := [⟨false, .onChip⟩] };
      s.input.reset = false ∧ s.input.irq ≠ .external) := by decide

/-- HaltedModesAreLeftOnlyByRequests: a step that leaves Idle mode, one that leaves Stop mode. -/
theorem witness_HaltedModesAreLeftOnlyByRequests :
    modeOf (step { sample with mode := .idle, sym := 0x04#8, inputs := [⟨false, .onChip⟩] }) = some .run ∧
    modeOf (step { sample with mode := .stop, sym := 0x04#8, inputs := [⟨false, .external⟩] }) = some .run := by decide

/-- DisabledRequestsAreInvisible. -/
theorem witness_DisabledRequestsAreInvisible : State.reset.mode = .run ∧ State.reset.sym2 = false := by decide

/-- RegisterReadAfterWrite: a write to SYM and a read of SP, neither FLAGS. -/
theorem witness_RegisterReadAfterWrite :
    (0xDF#8 : RegAddr) ≠ Config.flagsAddr ∧ writeReg 0xDF#8 0xFF#8 sample = .ok (sample.put 0xDF#8 0xFF#8) ∧
      (0xD9#8 : RegAddr) ≠ Config.flagsAddr ∧ (0xD9#8 : RegAddr) ≠ 0xDF#8 ∧ readReg 0xD9#8 sample = .ok (0xC0#8, sample) :=
  ⟨by decide, rfl, by decide, by decide, rfl⟩

/-- RefusedRegistersFault, both clauses at the ends of the default ranges. -/
theorem witness_RefusedRegistersFault :
    (∀ a ∈ ([0xD0, 0xD4, 0xD6, 0xD8, 0xDA, 0xDE, 0xE0, 0xFF] : List RegAddr),
      inRanges sample.cfg.periph a = true ∧ a ∉ [Config.flagsAddr, Config.spAddr, sample.cfg.symAddr]) ∧
    (∀ a ∈ ([0x00, 0xCF] : List RegAddr), inRanges sample.cfg.periph a = false ∧ inRanges sample.cfg.unimpl a = false) ∧
    ∀ a ∈ ([0xD5, 0xD9, 0xDF] : List RegAddr), a ∈ [Config.flagsAddr, Config.spAddr, sample.cfg.symAddr] := by decide

/-- PushThenPop: the stack byte at C0H - 1, at 00H and at DFH - 16. -/
theorem witness_PushThenPop :
    sample.isPlain (sample.sp - 1) ∧ State.isPlain { sample with sp := 0x01#8 } 0x00#8 ∧
    State.isPlain { sample with sp := 0xD0#8 } 0xCF#8 := by decide

/-- RegisterOperandForms, the indexed form: FFH + 80H wraps. -/
theorem witness_RegisterOperandForms : readReg (sample.wreg 15#4) sample = .ok (0x80#8, sample) := by rfl

/-- MemoryOperandForms: the first and the last register pair. -/
theorem witness_MemoryOperandForms :
    (sample.wpair 0#3 ≠ Config.flagsAddr ∧ sample.wpair 0#3 + 1 ≠ Config.flagsAddr ∧
      readReg (sample.wpair 0#3) sample = .ok (0x05#8, sample) ∧
      readReg (sample.wpair 0#3 + 1) sample = .ok (0x00#8, sample)) ∧
    (sample.wpair 7#3 ≠ Config.flagsAddr ∧ sample.wpair 7#3 + 1 ≠ Config.flagsAddr ∧
      readReg (sample.wpair 7#3) sample = .ok (0x00#8, sample) ∧
      readReg (sample.wpair 7#3 + 1) sample = .ok (0x80#8, sample)) :=
  ⟨⟨by decide, by decide, rfl, rfl⟩, by decide, by decide, rfl, rfl⟩

/-- The five operand forms of AddResult, AdcResult, SubResult, SbcResult, LogicResults: the destination resolves to a location
that is not FLAGS and both operands can be read. -/
theorem witness_FiveForms_Computes :
    (Loc.resolve (.w 0#4) sample = .ok (0xC0#8, sample) ∧ (0xC0#8 : RegAddr) ≠ Config.flagsAddr ∧
      readReg 0xC0#8 sample = .ok (0x05#8, sample) ∧ Src.value (.loc (.w 15#4)) sample = .ok (0x80#8, sample)) ∧
    (Loc.resolve (.w 15#4) sample = .ok (0xCF#8, sample) ∧ (0xCF#8 : RegAddr) ≠ Config.flagsAddr ∧
      readReg 0xCF#8 sample = .ok (0x80#8, sample) ∧ Src.value (.loc (.iw 0#4)) sample = .ok (0x00#8, sample)) ∧
    (Loc.resolve (.r 0x01#8) sample = .ok (0x01#8, sample) ∧ (0x01#8 : RegAddr) ≠ Config.flagsAddr ∧
      readReg 0x01#8 sample = .ok (0x7F#8, sample) ∧ Src.value (.loc (.r 0x01#8)) sample = .ok (0x7F#8, sample) ∧
      Src.value (.loc (.ir 0x00#8)) sample = .ok (0x7F#8, sample) ∧ Src.value (.im 0xFF#8) sample = .ok (0xFF#8, sample)) :=
  ⟨⟨rfl, by decide, rfl, rfl⟩, ⟨rfl, by decide, rfl, rfl⟩, rfl, by decide, rfl, rfl, rfl, rfl⟩

/-- The five operand forms of CpFlags and TestUnderMaskFlags. -/
theorem witness_FiveForms_Tests :
    Loc.value (.w 0#4) sample = .ok (0x05#8, sample) ∧ Src.value (.loc (.w 15#4)) sample = .ok (0x80#8, sample) ∧
    Src.value (.loc (.iw 0#4)) sample = .ok (0x00#8, sample) ∧ Loc.value (.r 0xCF#8) sample = .ok (0x80#8, sample) ∧
    Src.value (.loc (.r 0x00#8)) sample = .ok (0x01#8, sample) ∧ Src.value (.loc (.ir 0x00#8)) sample = .ok (0x7F#8, sample) ∧
    Src.value (.im 0x00#8) sample = .ok (0x00#8, sample) :=
  ⟨rfl, rfl, rfl, rfl, rfl, rfl, rfl⟩

/-- The operand forms of IncrementAndDecrementResults, RotateResults, ShiftRightArithmeticResult and of COM in
LogicResults. -/
theorem witness_TwoForms_ComputesUnary :
    (Loc.resolve (.r 0x01#8) sample = .ok (0x01#8, sample) ∧ (0x01#8 : RegAddr) ≠ Config.flagsAddr ∧
      readReg 0x01#8 sample = .ok (0x7F#8, sample)) ∧
    (Loc.resolve (.ir 0x02#8) sample = .ok (0x20#8, sample) ∧ (0x20#8 : RegAddr) ≠ Config.flagsAddr ∧
      readReg 0x20#8 sample = .ok (0x00#8, sample)) ∧
    (Loc.resolve (.w 15#4) sample = .ok (0xCF#8, sample) ∧ (0xCF#8 : RegAddr) ≠ Config.flagsAddr ∧
      readReg 0xCF#8 sample = .ok (0x80#8, sample)) :=
  ⟨⟨rfl, by decide, rfl⟩, ⟨rfl, by decide, rfl⟩, rfl, by decide, rfl⟩

/-- FlagsDestinationIsUnpredictable: FLAGS named directly, through a pointer, and as a working register. -/
theorem witness_FlagsDestinationIsUnpredictable :
    Loc.resolve (.r 0xD5#8) sample = .ok (Config.flagsAddr, sample) ∧
    (let s := start [(0x00#8, 0xD5#8)]; Loc.resolve (.ir 0x00#8) s = .ok (Config.flagsAddr, s)) ∧
    (let s : State := { sample with cfg := { defaultParams with wrBase := 0xD0#8 } };
      Loc.resolve (.w 5#4) s = .ok (Config.flagsAddr, s)) :=
  ⟨rfl, rfl, rfl⟩

/-- LoadAndClearResults: each destination and source form; FLAGS and SP as destinations. -/
theorem witness_LoadAndClearResults :
    (Loc.resolve (.w 0#4) sample = .ok (0xC0#8, sample) ∧ sample.refuses 0xC0#8 = false) ∧
    (Loc.resolve (.iw 0#4) sample = .ok (0x05#8, sample) ∧ sample.refuses 0x05#8 = false) ∧
    (Loc.resolve (.r 0xD5#8) sample = .ok (0xD5#8, sample) ∧ sample.refuses 0xD5#8 = false) ∧
    (Loc.resolve (.ir 0x02#8) sample = .ok (0x20#8, sample) ∧ sample.refuses 0x20#8 = false) ∧
    (Loc.resolve (.x 0xFF#8 0#4) sample = .ok (0x04#8, sample) ∧ sample.refuses 0x04#8 = false) ∧
    Src.value (.loc (.w 15#4)) sample = .ok (0x80#8, sample) ∧ Src.value (.loc (.iw 15#4)) sample = .ok (0x00#8, sample) ∧
    Src.value (.loc (.r 0x01#8)) sample = .ok (0x7F#8, sample) ∧ Src.value (.loc (.ir 0x00#8)) sample = .ok (0x7F#8, sample) ∧
    Src.value (.loc (.x 0xFC#8 0#4)) sample = .ok (0x7F#8, sample) ∧ Src.value (.im 0x00#8) sample = .ok (0x00#8, sample) :=
  ⟨⟨rfl, rfl⟩, ⟨rfl, rfl⟩, ⟨rfl, rfl⟩, ⟨rfl, rfl⟩, ⟨rfl, rfl⟩, rfl, rfl, rfl, rfl, rfl, rfl⟩

/-- Pairs for the memory forms: RR0 = 0000H, RR10 = 2000H, RR14 = 1FFFH, and a fitted data-memory cell at each end. -/
def memSample : State :=
  withData [(0x0000, 0xA5#8), (0x1FFF, 0x5A#8)]
    (withProgram [(0x0000, 0xA5#8), (0x1FFF, 0x5A#8)] true
      (start [(0xCA#8, 0x20#8), (0xCE#8, 0x1F#8), (0xCF#8, 0xFF#8)]))

/-- MemoryLoadResults: addresses 0 and 1FFFH, each operand form. -/
theorem witness_MemoryLoadResults :
    (MemAddr.ea (.irr 7#3) memSample = .ok (0x1FFF, memSample) ∧ MemAddr.ea (.xs 0#3 0x00#8) memSample = .ok (0, memSample) ∧
      MemAddr.ea (.xl 1#3 0x1FFF#16) memSample = .ok (0x1FFF, memSample) ∧
      MemAddr.ea (.da 0x0000#16) memSample = .ok (0, memSample)) ∧
    (0x1FFF : Int) < memSample.cfg.progSize ∧ memSample.dataMem.find 0x1FFF = some 0x5A#8 ∧
      memSample.dataMem.find 0 = some 0xA5#8 ∧ memSample.refuses (memSample.wreg 15#4) = false :=
  ⟨⟨rfl, rfl, rfl, rfl⟩, by decide, rfl, rfl, rfl⟩

/-- MemoryLoadResults and MemoryStoreResults, the faults: the addresses -1 and 2000H, outside both memories, and a data
address inside where no cell is fitted. -/
theorem witness_MemoryResults_outside :
    MemAddr.ea (.xs 0#3 0xFF#8) memSample = .ok (-1, memSample) ∧
    (MemAddr.ea (.xs 7#3 0x01#8) memSample = .ok (0x2000, memSample) ∧ (memSample.cfg.progSize : Int) ≤ 0x2000 ∧
      memSample.dataMem.find 0x2000 = none) ∧
    (MemAddr.ea (.da 0x0001#16) memSample = .ok (1, memSample) ∧ memSample.dataMem.find 1 = none) :=
  ⟨rfl, ⟨rfl, by decide, rfl⟩, rfl, rfl⟩

/-- MemoryStoreResults: on a part that can write program memory, and on one that cannot. -/
theorem witness_MemoryStoreResults :
    (MemAddr.ea (.irr 7#3) memSample = .ok (0x1FFF, memSample) ∧
      readReg (memSample.wreg 15#4) memSample = .ok (0xFF#8, memSample) ∧ memSample.cfg.progMemWritable = true ∧
      (0x1FFF : Int) < memSample.cfg.progSize ∧ (memSample.dataMem.find 0x1FFF).isSome) ∧
    (MemAddr.ea (.da 0xFFFF#16) sample = .ok (0xFFFF, sample) ∧ readReg (sample.wreg 0#4) sample = .ok (0x05#8, sample) ∧
      sample.cfg.progMemWritable = false) :=
  ⟨⟨rfl, rfl, rfl, by decide, rfl⟩, rfl, rfl, rfl⟩

/-- SteppingLoadResults: a destination in its pair, the pairs at 0000H and at 1FFFH with a destination outside, and a pair
at 2000H, where neither memory has a byte. -/
theorem witness_SteppingLoadResults :
    (7#4 : WReg).toNat / 2 = (3#3 : PairNo).toNat ∧
    ((15#4 : WReg).toNat / 2 ≠ (0#3 : PairNo).toNat ∧
      readPair (memSample.wpair 0#3) memSample = .ok (0x0000#16, memSample) ∧
      memSample.byteAt .program 0 = some 0xA5#8 ∧ memSample.byteAt .data 0 = some 0xA5#8 ∧
      memSample.refuses (memSample.wreg 15#4) = false) ∧
    (readPair (memSample.wpair 7#3) memSample = .ok (0x1FFF#16, memSample) ∧ memSample.byteAt .program 0x1FFF = some 0x5A#8) ∧
    (readPair (memSample.wpair 5#3) memSample = .ok (0x2000#16, memSample) ∧ memSample.byteAt .program 0x2000 = none ∧
      memSample.byteAt .data 0x2000 = none) :=
  ⟨by decide, ⟨by decide, rfl, rfl, rfl, rfl⟩, ⟨rfl, rfl⟩, rfl, rfl, rfl⟩

/-- PushResult: SP as the source and as the pointer, and a plain source. -/
theorem witness_PushResult :
    Loc.resolve (.r 0xD9#8) sample = .ok (Config.spAddr, sample) ∧
    Loc.resolve (.ir 0xD9#8) sample = .ok (0xC0#8, sample) ∧
    (Loc.resolve (.ir 0x02#8) sample = .ok (0x20#8, sample) ∧ (0x20#8 : RegAddr) ≠ Config.spAddr ∧
      Loc.ir 0x02#8 ≠ .ir Config.spAddr ∧ readReg 0x20#8 sample = .ok (0x00#8, sample) ∧
      sample.refuses (sample.sp - 1) = false) :=
  ⟨rfl, rfl, rfl, by decide, by decide, rfl, rfl⟩

/-- PopResult: SP as the destination and as the pointer, and FLAGS as the destination. -/
theorem witness_PopResult :
    Loc.resolve (.r 0xD9#8) sample = .ok (Config.spAddr, sample) ∧
    Loc.resolve (.ir 0xD9#8) sample = .ok (0xC0#8, sample) ∧
    (Loc.resolve (.r 0xD5#8) sample = .ok (0xD5#8, sample) ∧ (0xD5#8 : RegAddr) ≠ Config.spAddr ∧
      Loc.r 0xD5#8 ≠ .ir Config.spAddr ∧ readReg sample.sp sample = .ok (0x05#8, sample) ∧
      sample.refuses 0xD5#8 = false) :=
  ⟨rfl, rfl, rfl, by decide, by decide, rfl, rfl⟩

/-- CallResult and CallThenReturn: two plain stack bytes, a pair outside them. -/
theorem witness_CallResult :
    sample.isPlain (sample.sp - 1) ∧ sample.isPlain (sample.sp - 2) ∧
    (match push 0x03#8 sample with | .ok t => (match push 0x01#8 t with | .ok _ => true | _ => false) | _ => false) = true ∧
    (0x00#8 : RegAddr).toNat % 2 = 0 ∧ (0x00#8 : RegAddr) ≠ 0xD8#8 ∧
    (∀ b ∈ ([0x00, 0x01] : List RegAddr), b ∉ [sample.sp - 1, sample.sp - 2]) ∧
    readPair 0x00#8 sample = .ok (0x017F#16, sample) :=
  ⟨by decide, by decide, by decide, by decide, by decide, by decide, rfl⟩

theorem witness_CallThenReturn :
    (match exec (.callDa 0x0123#16) sample with | .next _ => true | _ => false) = true ∧
    (match exec (.callIpr 0x00#8) sample with | .next _ => true | _ => false) = true := by decide

/-- PairOperandFaults: an odd address, a pair in the stack bytes, and the pair D8H on a part where it can be read. -/
theorem witness_PairOperandFaults :
    (0xFF#8 : RegAddr).toNat % 2 = 1 ∧
    ((0xBE#8 : RegAddr).toNat % 2 = 0 ∧ readPair 0xBE#8 sample = .ok (0x0003#16, sample) ∧
      (0xBE#8 : RegAddr) ∈ [sample.sp - 1, sample.sp - 2]) ∧
    (let s : State := { sample with cfg := { defaultParams with periph := [] } };
      readPair 0xD8#8 s = .ok (0x00C0#16, s)) :=
  ⟨by decide, ⟨by decide, rfl, by decide⟩, rfl⟩

/-- JumpResult, the pair form at the two ends of the plain registers. -/
theorem witness_JumpResult :
    (0x00#8 : RegAddr).toNat % 2 = 0 ∧ readPair 0x00#8 sample = .ok (0x017F#16, sample) ∧
    (0xCE#8 : RegAddr).toNat % 2 = 0 ∧ readPair 0xCE#8 sample = .ok (0x0080#16, sample) :=
  ⟨by decide, rfl, by decide, rfl⟩

/-- ReturnResult and InterruptReturnResult: three plain stack bytes, and bytes that can be popped. -/
theorem witness_ReturnResult :
    sample.isPlain sample.sp ∧ sample.isPlain (sample.sp + 1) ∧ sample.isPlain (sample.sp + 2) ∧
    (match pop sample with | .ok (_, t) => (match pop t with | .ok _ => true | _ => false) | _ => false) = true := by decide

theorem witness_InterruptReturnResult :
    (match pop sample with
      | .ok (f, t) => (match popWord { t with flags := Flags.ofByte f } with | .ok _ => true | _ => false)
      | _ => false) = true := by decide

/-- RegisterFrame, MemoryFrame, FlagTable and ControlStateFrame: an instruction that answers a next state, with a location it
does not write, an address it does not store to, and FLAGS not written as a register. -/
theorem witness_Frames :
    (match exec (.ldeIpwW 7#3 0#4) memSample with | .next _ => true | _ => false) = true ∧
    (0x00#8 : RegAddr) ∉ regsWritten (.ldeIpwW 7#3 0#4) memSample ∧
    storesTo (.ldeIpwW 7#3 0#4) memSample = some (.data, 0x1FFF) ∧
    Config.flagsAddr ∉ regsWritten (.ldeIpwW 7#3 0#4) memSample ∧
    Config.spAddr ∉ regsWritten (.ldeIpwW 7#3 0#4) memSample ∧
    memSample.cfg.symAddr ∉ regsWritten (.ldeIpwW 7#3 0#4) memSample := by decide

/-- EveryStepKeepsWellFormed and EveryStepKeepsTheConfiguration: a well-formed state, waiting in Idle mode, and its step. -/
theorem witness_EveryStepKeepsWellFormed :
    let s : State := { State.reset with mode := .idle }
    s.wf ∧ modeOf (step s) = some .idle :=
  ⟨⟨by decide, by decide, by decide, by decide, by decide, fun a _ => by simp [State.reset]⟩, by decide⟩

/-- MaskedRomIsNeverWritten. -/
theorem witness_MaskedRomIsNeverWritten :
    State.reset.cfg.progMemWritable = false ∧ (match step State.reset with | .next _ => true | _ => false) = true := by decide

end Sys2Proof.Tests
end

section
/-! PROOF. The condition codes: the table of 30_encoding.md R86 and its negation law. -/

namespace Sys2Proof.Machine

/-- Bit 3 of a condition code inverts the test (30_encoding.md R86). The codes 0 to 7 pass to their negations as the
model writes them, the codes 8 to F negate twice, and the pair ULE and UGT is De Morgan's law. -/
theorem Flags.holds_ofCode_xor_bit3 (f : Flags) (cc : Cond) :
    f.holds (Cond.ofCode (cc.code ^^^ 0x8#4)) = !f.holds cc := by
  cases cc with
  | f | lt | le | ov | mi | z | c => rfl
  | t | ge | gt | nov | pl | nz | nc => exact (Bool.not_not _).symm
  | ule => exact (Bool.not_or f.c f.z).symm
  | ugt =>
    calc (f.c || f.z)
        = !!(f.c || f.z) := (Bool.not_not _).symm
      _ = !(!f.c && !f.z) := congrArg _ (Bool.not_or f.c f.z)

/-- The code with bit 3 set is the code with bit 3 clear, bit 3 inverted. -/
theorem one_append_eq_xor_bit3 : ∀ low : BitVec 3, 1#1 ++ low = (0#1 ++ low) ^^^ 0x8#4 := by decide

/-- The negation law on the codes themselves. -/
theorem Flags.holds_ofCode_one_append (f : Flags) (low : BitVec 3) :
    f.holds (Cond.ofCode (1#1 ++ low)) = !f.holds (Cond.ofCode (0#1 ++ low)) := by
  have inverted := f.holds_ofCode_xor_bit3 (Cond.ofCode (0#1 ++ low))
  rwa [Cond.code_ofCode, ← one_append_eq_xor_bit3] at inverted

/-- Settles O23: each row of the table is the model's test at that code, and the negation law is
`Flags.holds_ofCode_one_append`. -/
theorem conditionCodes : Obligations.ConditionCodes := by
  intro f
  have negation := f.holds_ofCode_one_append
  exact ⟨rfl, rfl, rfl, rfl, rfl, rfl, rfl, rfl, rfl, rfl, rfl, rfl, rfl, rfl, rfl, rfl, negation⟩

end Sys2Proof.Machine
end

section
/-! PROOF. The results of the instructions that write a destination and flags: the forward rules of their shared shapes,
and with them the logic instructions of 42_logic.md. -/

namespace Sys2Proof.Machine

/-! ### The shared shapes, forwards: the next state when the operands can be read -/

/-- The converse of `aluWrite_ok`. The destination was read, so it is not refused when it is written, and the reads of the
operands leave the flags the computation sees. -/
theorem aluWrite_of_operands {f : Flags → Byte → Byte → Byte × Flags} {dst : Loc} {src : Src} {n : Nat}
    {s s1 s2 s3 : State} {d : RegAddr} {a b : Byte} (hdst : dst.resolve s = .ok (d, s1)) (hd : d ≠ Config.flagsAddr)
    (ha : readReg d s1 = .ok (a, s2)) (hb : src.value s2 = .ok (b, s3)) :
    aluWrite f dst src n s =
      .ok ({ s3.put d (f s.flags a b).1 with flags := (f s.flags a b).2 }.advance n) := by
  have reads : SameButDraws s1 s3 := (readReg_sameButDraws ha).trans (Src.value_sameButDraws hb)
  have writable : s3.refuses d = false := (reads.refuses d).trans (readReg_eq_ok.1 ha).1
  obtain ⟨-, -, flags_eq, -⟩ := ((Loc.resolve_sameButDraws hdst).trans reads).fields
  simp [aluWrite, hdst, hd, ha, hb, writeReg_eq_ok.2 ⟨writable, rfl⟩, flags_eq]

/-- The converse of `aluUnary_ok`. -/
theorem aluUnary_of_operand {f : Flags → Byte → Byte × Flags} {dst : Loc} {n : Nat} {s s1 s2 : State} {d : RegAddr}
    {a : Byte} (hdst : dst.resolve s = .ok (d, s1)) (hd : d ≠ Config.flagsAddr) (ha : readReg d s1 = .ok (a, s2)) :
    aluUnary f dst n s = .ok ({ s2.put d (f s.flags a).1 with flags := (f s.flags a).2 }.advance n) := by
  have read : SameButDraws s1 s2 := readReg_sameButDraws ha
  have writable : s2.refuses d = false := (read.refuses d).trans (readReg_eq_ok.1 ha).1
  obtain ⟨-, -, flags_eq, -⟩ := ((Loc.resolve_sameButDraws hdst).trans read).fields
  simp [aluUnary, hdst, hd, ha, writeReg_eq_ok.2 ⟨writable, rfl⟩, flags_eq]

/-! ### From the shape of an instruction to its result -/

/-- The instruction's meaning is the two-operand shape of computation f on its own operands and length. -/
def HasWriteShape (f : Flags → Byte → Byte → Byte × Flags) (i : Instr) (dst : Loc) (src : Src) : Prop :=
  ∀ s, exec i s = toOutcome (aluWrite f dst src i.length s)

/-- The instruction's meaning is the one-operand shape of computation f on its own operand and length. -/
def HasUnaryShape (f : Flags → Byte → Byte × Flags) (i : Instr) (dst : Loc) : Prop :=
  ∀ s, exec i s = toOutcome (aluUnary f dst i.length s)

theorem HasWriteShape.computes {f : Flags → Byte → Byte → Byte × Flags} {result : Flags → Byte → Byte → Byte}
    {flags : Flags → Byte → Byte → Flags} {i : Instr} {dst : Loc} {src : Src}
    (hf : ∀ old a b, f old a b = (result old a b, flags old a b)) (shape : HasWriteShape f i dst src) :
    Computes result flags i dst src := by
  intro s d s1 a s2 b s3 hdst hd ha hb
  rw [shape, aluWrite_of_operands hdst hd ha hb, toOutcome_ok, hf]

theorem HasUnaryShape.computesUnary {f : Flags → Byte → Byte × Flags} {result : Flags → Byte → Byte}
    {flags : Flags → Byte → Flags} {i : Instr} {dst : Loc} (hf : ∀ old a, f old a = (result old a, flags old a))
    (shape : HasUnaryShape f i dst) : ComputesUnary result flags i dst := by
  intro s d s1 a s2 hdst hd ha
  rw [shape, aluUnary_of_operand hdst hd ha, toOutcome_ok, hf]

/-- What follows from a claim about one operand form follows in all five. -/
theorem FiveForms.imp {ww wiw : WReg → WReg → Instr} {rr rir : RegAddr → RegAddr → Instr} {rim : RegAddr → Byte → Instr}
    {P Q : Instr → Loc → Src → Prop} (hPQ : ∀ {i dst src}, P i dst src → Q i dst src)
    (h : FiveForms ww wiw rr rir rim P) : FiveForms ww wiw rr rir rim Q := by
  obtain ⟨hww, hwiw, hrr, hrir, hrim⟩ := h
  exact ⟨fun d m => hPQ (hww d m), fun d m => hPQ (hwiw d m), fun d m => hPQ (hrr d m), fun d m => hPQ (hrir d m),
    fun d v => hPQ (hrim d v)⟩

/-- What follows from a claim about one operand form follows in both. -/
theorem TwoForms.imp {r ir : RegAddr → Instr} {P Q : Instr → Loc → Prop} (hPQ : ∀ {i dst}, P i dst → Q i dst)
    (h : TwoForms r ir P) : TwoForms r ir Q := by
  obtain ⟨hr, hir⟩ := h
  exact ⟨fun a => hPQ (hr a), fun a => hPQ (hir a)⟩

/-! ### The logic instructions -/

/-- Bit 7 of a result is its sign (42_logic.md R160), so the model's flags are the exact ones. -/
theorem logicFlags_eq (old : Flags) (res : Byte) : logicFlags old res = logicResultFlags old res := by
  simp only [logicFlags, logicResultFlags, zeroSign, BitVec.msb_eq_toInt]

/-- COM inverts all bits, which is XOR with FFH (42_logic.md R162). -/
theorem not_eq_xor_ff (a : Byte) : ~~~a = a ^^^ 0xFF#8 := (BitVec.xor_allOnes (x := a)).symm

theorem aluAnd_eq (old : Flags) (a b : Byte) : aluAnd old a b = (a &&& b, logicResultFlags old (a &&& b)) := by
  rw [aluAnd, logicFlags_eq]

theorem aluOr_eq (old : Flags) (a b : Byte) : aluOr old a b = (a ||| b, logicResultFlags old (a ||| b)) := by
  rw [aluOr, logicFlags_eq]

theorem aluXor_eq (old : Flags) (a b : Byte) : aluXor old a b = (a ^^^ b, logicResultFlags old (a ^^^ b)) := by
  rw [aluXor, logicFlags_eq]

theorem aluCom_eq (old : Flags) (a : Byte) :
    aluCom old a = (a ^^^ 0xFF#8, logicResultFlags old (a ^^^ 0xFF#8)) := by
  rw [aluCom, logicFlags_eq, not_eq_xor_ff]

theorem and_hasWriteShape : FiveForms .andWW .andWIw .andRR .andRIr .andRIm (HasWriteShape aluAnd) :=
  ⟨fun _ _ _ => rfl, fun _ _ _ => rfl, fun _ _ _ => rfl, fun _ _ _ => rfl, fun _ _ _ => rfl⟩

theorem or_hasWriteShape : FiveForms .orWW .orWIw .orRR .orRIr .orRIm (HasWriteShape aluOr) :=
  ⟨fun _ _ _ => rfl, fun _ _ _ => rfl, fun _ _ _ => rfl, fun _ _ _ => rfl, fun _ _ _ => rfl⟩

theorem xor_hasWriteShape : FiveForms .xorWW .xorWIw .xorRR .xorRIr .xorRIm (HasWriteShape aluXor) :=
  ⟨fun _ _ _ => rfl, fun _ _ _ => rfl, fun _ _ _ => rfl, fun _ _ _ => rfl, fun _ _ _ => rfl⟩

theorem com_hasUnaryShape : TwoForms .comR .comIr (HasUnaryShape aluCom) :=
  ⟨fun _ _ => rfl, fun _ _ => rfl⟩

/-- Settles O29: every form of AND, OR, XOR and COM has its shared shape, whose next state the forward rules give; the
results and flags of the shape's computation are those of 42_logic.md R160. -/
theorem logicResults : Obligations.LogicResults :=
  ⟨and_hasWriteShape.imp (HasWriteShape.computes aluAnd_eq),
    or_hasWriteShape.imp (HasWriteShape.computes aluOr_eq),
    xor_hasWriteShape.imp (HasWriteShape.computes aluXor_eq),
    com_hasUnaryShape.imp (HasUnaryShape.computesUnary aluCom_eq)⟩

end Sys2Proof.Machine
end

section
/-! PROOF. The results of the rotate instructions of 45_rotate_shift.md: each moves the byte by one place, up or down, while
one bit enters and one bit leaves. -/

namespace Sys2Proof.Machine

/-! ### The bit that leaves the byte -/

theorem getLsbD_seven_eq_decide (a : Byte) : a.getLsbD 7 = decide (a.toNat ≥ 128) := BitVec.msb_eq_decide a

theorem getLsbD_zero_eq_decide (a : Byte) : a.getLsbD 0 = decide (a.toNat % 2 = 1) := Nat.testBit_zero a.toNat

/-- Bit 7, as the number that RL puts into bit 0 (45_rotate_shift.md R191). -/
theorem toNat_getLsbD_seven (a : Byte) : (a.getLsbD 7).toNat = a.toNat / 128 := by
  have bit : (a.getLsbD 7).toNat = a.toNat / 2 ^ 7 % 2 := Nat.toNat_testBit a.toNat 7
  omega

/-- Bit 0, as the number that RR puts into bit 7 (45_rotate_shift.md R193). -/
theorem toNat_getLsbD_zero (a : Byte) : (a.getLsbD 0).toNat = a.toNat % 2 := by
  have bit : (a.getLsbD 0).toNat = a.toNat / 2 ^ 0 % 2 := Nat.toNat_testBit a.toNat 0
  omega

/-! ### The move by one place -/

theorem toNat_append_eq_add {m n : Nat} (x : BitVec m) (y : BitVec n) :
    (x ++ y).toNat = x.toNat * 2 ^ n + y.toNat := by
  rw [BitVec.toNat_append, ← Nat.shiftLeft_add_eq_or_of_lt y.isLt, Nat.shiftLeft_eq]

/-- Bits 6..0 one place up and a bit into bit 0: twice the byte modulo 256, plus the bit. -/
theorem low_append_ofBool (a : Byte) (bit : Bool) :
    a.extractLsb' 0 7 ++ BitVec.ofBool bit = BitVec.ofNat 8 (a.toNat * 2 % 256 + bit.toNat) := by
  have low : (a.extractLsb' 0 7).toNat = a.toNat % 128 := by simp
  have moved := toNat_append_eq_add (a.extractLsb' 0 7) (BitVec.ofBool bit)
  have bound := bit.toNat_lt
  apply BitVec.eq_of_toNat_eq
  rw [moved, low, BitVec.toNat_ofBool, BitVec.toNat_ofNat]
  omega

/-- Bits 7..1 one place down and a bit into bit 7: half the byte, plus 128 times the bit. -/
theorem ofBool_append_high (a : Byte) (bit : Bool) :
    BitVec.ofBool bit ++ a.extractLsb' 1 7 = BitVec.ofNat 8 (a.toNat / 2 + bit.toNat * 128) := by
  have high : (a.extractLsb' 1 7).toNat = a.toNat / 2 % 128 := by simp [Nat.shiftRight_eq_div_pow]
  have moved := toNat_append_eq_add (BitVec.ofBool bit) (a.extractLsb' 1 7)
  have bound := bit.toNat_lt
  apply BitVec.eq_of_toNat_eq
  rw [moved, high, BitVec.toNat_ofBool, BitVec.toNat_ofNat]
  omega

/-! ### The computations -/

/-- Two top bits differ exactly when the two signs do, so the model's V is the exact one (45_rotate_shift.md R190). -/
theorem rotFlags_eq (old res : Byte) (out : Bool) : rotFlags old res out = rotateResultFlags old res out := by
  have sign_changed : (res.msb != old.msb) = decide ((old.toInt < 0) ≠ (res.toInt < 0)) := by
    rw [BitVec.msb_eq_toInt, BitVec.msb_eq_toInt]
    by_cases hold : old.toInt < 0 <;> by_cases hres : res.toInt < 0 <;> simp [hold, hres]
  rw [rotFlags, rotateResultFlags, zeroSign, sign_changed, BitVec.msb_eq_toInt]

theorem aluRl_eq (old : Flags) (a : Byte) :
    let res : Byte := BitVec.ofNat 8 (a.toNat * 2 % 256 + a.toNat / 128)
    aluRl old a = (res, rotateResultFlags a res (decide (a.toNat ≥ 128))) := by
  rw [aluRl, rotFlags_eq, low_append_ofBool, toNat_getLsbD_seven, getLsbD_seven_eq_decide]

theorem aluRlc_eq (old : Flags) (a : Byte) :
    let res : Byte := BitVec.ofNat 8 (a.toNat * 2 % 256 + old.c.toNat)
    aluRlc old a = (res, rotateResultFlags a res (decide (a.toNat ≥ 128))) := by
  rw [aluRlc, rotFlags_eq, low_append_ofBool, getLsbD_seven_eq_decide]

theorem aluRr_eq (old : Flags) (a : Byte) :
    let res : Byte := BitVec.ofNat 8 (a.toNat / 2 + a.toNat % 2 * 128)
    aluRr old a = (res, rotateResultFlags a res (decide (a.toNat % 2 = 1))) := by
  rw [aluRr, rotFlags_eq, ofBool_append_high, toNat_getLsbD_zero, getLsbD_zero_eq_decide]

theorem aluRrc_eq (old : Flags) (a : Byte) :
    let res : Byte := BitVec.ofNat 8 (a.toNat / 2 + old.c.toNat * 128)
    aluRrc old a = (res, rotateResultFlags a res (decide (a.toNat % 2 = 1))) := by
  rw [aluRrc, rotFlags_eq, ofBool_append_high, getLsbD_zero_eq_decide]

/-! ### The instructions -/

theorem rl_hasUnaryShape : TwoForms .rlR .rlIr (HasUnaryShape aluRl) := ⟨fun _ _ => rfl, fun _ _ => rfl⟩

theorem rlc_hasUnaryShape : TwoForms .rlcR .rlcIr (HasUnaryShape aluRlc) := ⟨fun _ _ => rfl, fun _ _ => rfl⟩

theorem rr_hasUnaryShape : TwoForms .rrR .rrIr (HasUnaryShape aluRr) := ⟨fun _ _ => rfl, fun _ _ => rfl⟩

theorem rrc_hasUnaryShape : TwoForms .rrcR .rrcIr (HasUnaryShape aluRrc) := ⟨fun _ _ => rfl, fun _ _ => rfl⟩

/-- Settles O32: both forms of each rotate have the one-operand shape, whose next state the forward rule gives; the shape's
computation is the move by one place in arithmetic, with the flags of 45_rotate_shift.md R190. -/
theorem rotateResults : Obligations.RotateResults :=
  ⟨rl_hasUnaryShape.imp (HasUnaryShape.computesUnary aluRl_eq),
    rlc_hasUnaryShape.imp (HasUnaryShape.computesUnary aluRlc_eq),
    rr_hasUnaryShape.imp (HasUnaryShape.computesUnary aluRr_eq),
    rrc_hasUnaryShape.imp (HasUnaryShape.computesUnary aluRrc_eq)⟩

end Sys2Proof.Machine
end

section
/-! PROOF. The results of CCF, RCF, SCF and NOP, 46_cpu_control.md R200, R204 to R206: the dispatch of each, and the one-byte
advance they share. -/

namespace Sys2Proof.Machine

/-! ### The advance past one byte -/

theorem State.advance_one (s : State) : s.advance 1 = { s with pc := s.pc + 1 } := rfl

/-! ### The instructions -/

theorem exec_ccf (s : State) : exec .ccf s = .next ({ s with flags.c := !s.flags.c }.advance 1) := rfl

theorem exec_rcf (s : State) : exec .rcf s = .next ({ s with flags.c := false }.advance 1) := rfl

theorem exec_scf (s : State) : exec .scf s = .next ({ s with flags.c := true }.advance 1) := rfl

theorem exec_nop (s : State) : exec .nop s = .next (s.advance 1) := rfl

/-- Settles O48: the byte and the cycles are entries of the model's tables; each instruction writes C alone and advances past
its one byte. -/
theorem carryInstructions : Obligations.CarryInstructions := by
  intro s
  refine ⟨⟨rfl, rfl, ?ccf⟩, ⟨rfl, rfl, ?rcf⟩, ⟨rfl, rfl, ?scf⟩⟩
  case ccf => rw [exec_ccf, State.advance_one]
  case rcf => rw [exec_rcf, State.advance_one]
  case scf => rw [exec_scf, State.advance_one]

/-- Settles O50: NOP is the advance past one byte and nothing else. -/
theorem nopChangesOnlyPc : Obligations.NopChangesOnlyPc := by
  intro s
  refine ⟨rfl, rfl, ?_⟩
  rw [exec_nop, State.advance_one]

end Sys2Proof.Machine
end

section
/-! PROOF. Decoder and encoder are inverse to each other (30_encoding.md R71, R84 to R92). One way the cell of the first byte is
computed and its fields read back; the other way every cell of the opcode map is checked against the encoder. -/

namespace Sys2Proof

/-! ### Decoding by the cell of the first byte -/

theorem decode_of_one {b : Byte} {i : Instr} {rest : List Byte} (cell : opcodeCell b = .one i) :
    decode (b :: rest) = .ok (i, rest) := by simp only [decode, cell]

theorem decode_of_two {b x : Byte} {f : Byte → Instr} {i : Instr} {rest : List Byte} (cell : opcodeCell b = .two f)
    (hi : f x = i) : decode (b :: x :: rest) = .ok (i, rest) := by simp only [decode, cell, hi]

theorem decode_of_three {b x y : Byte} {f : Byte → Byte → Instr} {i : Instr} {rest : List Byte}
    (cell : opcodeCell b = .three f) (hi : f x y = i) : decode (b :: x :: y :: rest) = .ok (i, rest) := by
  simp only [decode, cell, hi]

theorem decode_of_four {b x y z : Byte} {f : Byte → Byte → Byte → Instr} {i : Instr} {rest : List Byte}
    (cell : opcodeCell b = .four f) (hi : f x y z = i) : decode (b :: x :: y :: z :: rest) = .ok (i, rest) := by
  simp only [decode, cell, hi]

theorem decode_of_cellWW {b : Byte} {f : WReg → WReg → Instr} {m n : WReg} {i : Instr} {rest : List Byte}
    (cell : opcodeCell b = cellWW f) (hi : f m n = i) : decode (b :: ofNibbles m n :: rest) = .ok (i, rest) :=
  decode_of_two cell (by rw [hiNibble_ofNibbles, loNibble_ofNibbles, hi])

/-- The memory-space bit of the pair field picks the instruction of a paired cell (R87). -/
theorem decode_of_cellPair {b : Byte} {pm dm : WReg → PairNo → Instr} {n : WReg} {p : PairNo} {data : Bool} {i : Instr}
    {rest : List Byte} (cell : opcodeCell b = cellPair pm dm) (hi : (if data then dm n p else pm n p) = i) :
    decode (b :: ofNibbles n (pairField p data) :: rest) = .ok (i, rest) :=
  decode_of_two cell
    (by rw [hiNibble_ofNibbles, loNibble_ofNibbles, fieldIsData_pairField, pairOfField_pairField, hi])

theorem decode_of_cellShort {b x : Byte} {pm dm : WReg → PairNo → Byte → Instr} {n : WReg} {p : PairNo} {data : Bool}
    {i : Instr} {rest : List Byte} (cell : opcodeCell b = cellShort pm dm)
    (hi : (if data then dm n p x else pm n p x) = i) :
    decode (b :: ofNibbles n (pairField p data) :: x :: rest) = .ok (i, rest) :=
  decode_of_three cell
    (by rw [hiNibble_ofNibbles, loNibble_ofNibbles, fieldIsData_pairField, pairOfField_pairField, hi])

/-- A long cell with a pair other than RR0 is the long index (R80, R87). -/
theorem decode_of_cellLong {b : Byte} {pmDirect dmDirect : WReg → Word → Instr} {pm dm : WReg → PairNo → Word → Instr}
    {n : WReg} {p : PairNo} {data : Bool} {w : Word} {i : Instr} {rest : List Byte}
    (cell : opcodeCell b = cellLong pmDirect dmDirect pm dm) (hp : (p != 0) = true)
    (hi : (if data then dm n p w else pm n p w) = i) :
    decode (b :: ofNibbles n (pairField p data) :: loByte w :: hiByte w :: rest) = .ok (i, rest) := by
  have hp : p ≠ 0 := by simpa using hp
  exact decode_of_four cell
    (by rw [hiNibble_ofNibbles, loNibble_ofNibbles, fieldIsData_pairField, pairOfField_pairField, ofBytes_hi_lo,
      if_neg hp, hi])

/-- A long cell with the pair field 0 or 1 is a direct address (R81, R87). -/
theorem decode_of_cellLong_direct {b : Byte} {pmDirect dmDirect : WReg → Word → Instr}
    {pm dm : WReg → PairNo → Word → Instr} {n : WReg} {data : Bool} {w : Word} {i : Instr} {rest : List Byte}
    (cell : opcodeCell b = cellLong pmDirect dmDirect pm dm) (hi : (if data then dmDirect n w else pmDirect n w) = i) :
    decode (b :: ofNibbles n (pairField 0 data) :: loByte w :: hiByte w :: rest) = .ok (i, rest) :=
  decode_of_four cell
    (by rw [hiNibble_ofNibbles, loNibble_ofNibbles, fieldIsData_pairField, pairOfField_pairField, ofBytes_hi_lo,
      if_pos rfl, hi])

/-- The cell of a first byte whose upper nibble is an operand. -/
theorem opcodeCell_ofNibbles (hi lo : BitVec 4) : opcodeCell (ofNibbles hi lo) = opcodeMap hi lo := by
  rw [opcodeCell, hiNibble_ofNibbles, loNibble_ofNibbles]

/-! The cells of the memory stores: the field order of their instructions is not that of the bytes. -/

theorem opcodeCell_D3 : opcodeCell 0xD3#8 = cellPair (fun n p => .ldcIpwW p n) fun n p => .ldeIpwW p n := rfl

theorem opcodeCell_F7 : opcodeCell 0xF7#8 = cellShort (fun n p x => .ldcXsW p x n) fun n p x => .ldeXsW p x n := rfl

theorem opcodeCell_B7 : opcodeCell 0xB7#8 = cellLong (fun n w => .ldcDaW w n) (fun n w => .ldeDaW w n)
    (fun n p w => .ldcXlW p w n) fun n p w => .ldeXlW p w n := rfl

/-- Settles O1, by the encoding formats of 30_encoding.md R84 to R87: the first byte is a literal whose cell is computed, or
carries an operand in its upper nibble, and the fields of the other bytes read back. -/
theorem decodeOfEncode : Obligations.DecodeOfEncode := by
  intro i rest pairOk
  cases i with
  | idle | stop | di | ei | ret | iret | rcf | scf | ccf | nop => exact decode_of_one rfl
  | decR | decIr | rlcR | rlcIr | incR | incIr | popR | popIr | comR | comIr | pushR | pushIr | rlR | rlIr | clrR | clrIr
  | rrcR | rrcIr | sraR | sraIr | rrR | rrIr | jpIpr | callIpr => exact decode_of_two rfl rfl
  | addWW | addWIw | adcWW | adcWIw | subWW | subWIw | sbcWW | sbcWIw | orWW | orWIw | andWW | andWIw | tcmWW | tcmWIw
  | tmWW | tmWIw | cpWW | cpWIw | xorWW | xorWIw | ldWIw | ldIwW => exact decode_of_cellWW rfl rfl
  | addRR | addRIr | addRIm | adcRR | adcRIr | adcRIm | subRR | subRIr | subRIm | sbcRR | sbcRIr | sbcRIm | orRR | orRIr
  | orRIm | andRR | andRIr | andRIm | tcmRR | tcmRIr | tcmRIm | tmRR | tmRIr | tmRIm | cpRR | cpRIr | cpRIm | xorRR
  | xorRIr | xorRIm | ldRR | ldRIr | ldRIm | ldIrIm | ldIrR => exact decode_of_three rfl rfl
  | ldWX | ldXW => exact decode_of_three rfl (by rw [hiNibble_ofNibbles, loNibble_ofNibbles])
  | ldcWIpw | ldcd | ldci => exact decode_of_cellPair (data := false) rfl rfl
  | ldeWIpw | lded | ldei => exact decode_of_cellPair (data := true) rfl rfl
  | ldcIpwW => exact decode_of_cellPair (data := false) opcodeCell_D3 rfl
  | ldeIpwW => exact decode_of_cellPair (data := true) opcodeCell_D3 rfl
  | ldcWXs => exact decode_of_cellShort (data := false) rfl rfl
  | ldeWXs => exact decode_of_cellShort (data := true) rfl rfl
  | ldcXsW => exact decode_of_cellShort (data := false) opcodeCell_F7 rfl
  | ldeXsW => exact decode_of_cellShort (data := true) opcodeCell_F7 rfl
  | ldcWXl => exact decode_of_cellLong (data := false) rfl pairOk rfl
  | ldeWXl => exact decode_of_cellLong (data := true) rfl pairOk rfl
  | ldcXlW => exact decode_of_cellLong (data := false) opcodeCell_B7 pairOk rfl
  | ldeXlW => exact decode_of_cellLong (data := true) opcodeCell_B7 pairOk rfl
  | ldcWDa => exact decode_of_cellLong_direct (data := false) rfl rfl
  | ldeWDa => exact decode_of_cellLong_direct (data := true) rfl rfl
  | ldcDaW => exact decode_of_cellLong_direct (data := false) opcodeCell_B7 rfl
  | ldeDaW => exact decode_of_cellLong_direct (data := true) opcodeCell_B7 rfl
  | callDa => exact decode_of_three rfl (by rw [ofBytes_hi_lo])
  | incW => exact decode_of_one (opcodeCell_ofNibbles _ _)
  | ldWIm | ldWR | ldRW => exact decode_of_two (opcodeCell_ofNibbles _ _) rfl
  | jrCcRa => exact decode_of_two (opcodeCell_ofNibbles _ _) (by rw [Cond.ofCode_code])
  | jpCcDa => exact decode_of_three (opcodeCell_ofNibbles _ _) (by rw [Cond.ofCode_code, ofBytes_hi_lo])

/-! ### Every cell of the opcode map against the encoder -/

/-- The bytes a cell decodes after first byte b are the encoder's bytes of an instruction the encoding admits. -/
def OpcodeCell.Encodes (b : Byte) : OpcodeCell → Prop
  | .undefined => True
  | .one i => encode i = [b] ∧ i.longIndexPairOk = true
  | .two f => ∀ x, encode (f x) = [b, x] ∧ (f x).longIndexPairOk = true
  | .three f => ∀ x y, encode (f x y) = [b, x, y] ∧ (f x y).longIndexPairOk = true
  | .four f => ∀ x y z, encode (f x y z) = [b, x, y, z] ∧ (f x y z).longIndexPairOk = true

/-- A byte is the working register in its left nibble and the pair field in its right one. -/
theorem ofNibbles_pairField_eq {b : Byte} {data : Bool} (h : fieldIsData (loNibble b) = data) :
    ofNibbles (hiNibble b) (pairField (pairOfField (loNibble b)) data) = b := by
  rw [pairField_of_fieldIsData _ _ h, ofNibbles_hi_lo]

theorem cellWW_encodes {b : Byte} {f : WReg → WReg → Instr}
    (h : ∀ m n, encode (f m n) = [b, ofNibbles m n] ∧ (f m n).longIndexPairOk = true) : (cellWW f).Encodes b := by
  intro x
  obtain ⟨bytes, ok⟩ := h (hiNibble x) (loNibble x)
  exact ⟨by rw [bytes, ofNibbles_hi_lo], ok⟩

theorem cellPair_encodes {b : Byte} {pm dm : WReg → PairNo → Instr}
    (hpm : ∀ n p, encode (pm n p) = [b, ofNibbles n (pairField p false)] ∧ (pm n p).longIndexPairOk = true)
    (hdm : ∀ n p, encode (dm n p) = [b, ofNibbles n (pairField p true)] ∧ (dm n p).longIndexPairOk = true) :
    (cellPair pm dm).Encodes b := by
  intro x
  dsimp only
  split
  · next data =>
    obtain ⟨bytes, ok⟩ := hdm (hiNibble x) (pairOfField (loNibble x))
    exact ⟨by rw [bytes, ofNibbles_pairField_eq data], ok⟩
  · next program =>
    obtain ⟨bytes, ok⟩ := hpm (hiNibble x) (pairOfField (loNibble x))
    exact ⟨by rw [bytes, ofNibbles_pairField_eq (Bool.eq_false_iff.2 program)], ok⟩

theorem cellShort_encodes {b : Byte} {pm dm : WReg → PairNo → Byte → Instr}
    (hpm : ∀ n p y, encode (pm n p y) = [b, ofNibbles n (pairField p false), y] ∧ (pm n p y).longIndexPairOk = true)
    (hdm : ∀ n p y, encode (dm n p y) = [b, ofNibbles n (pairField p true), y] ∧ (dm n p y).longIndexPairOk = true) :
    (cellShort pm dm).Encodes b := by
  intro x y
  dsimp only
  split
  · next data =>
    obtain ⟨bytes, ok⟩ := hdm (hiNibble x) (pairOfField (loNibble x)) y
    exact ⟨by rw [bytes, ofNibbles_pairField_eq data], ok⟩
  · next program =>
    obtain ⟨bytes, ok⟩ := hpm (hiNibble x) (pairOfField (loNibble x)) y
    exact ⟨by rw [bytes, ofNibbles_pairField_eq (Bool.eq_false_iff.2 program)], ok⟩

/-- The two direct forms have the pair field of RR0, which no long-index form has (R80, R87). -/
theorem cellLong_encodes {b : Byte} {pmDirect dmDirect : WReg → Word → Instr} {pm dm : WReg → PairNo → Word → Instr}
    (hpmDirect : ∀ n w, encode (pmDirect n w) = [b, ofNibbles n (pairField 0 false), loByte w, hiByte w] ∧
      (pmDirect n w).longIndexPairOk = true)
    (hdmDirect : ∀ n w, encode (dmDirect n w) = [b, ofNibbles n (pairField 0 true), loByte w, hiByte w] ∧
      (dmDirect n w).longIndexPairOk = true)
    (hpm : ∀ n p w, encode (pm n p w) = [b, ofNibbles n (pairField p false), loByte w, hiByte w] ∧
      (pm n p w).longIndexPairOk = (p != 0))
    (hdm : ∀ n p w, encode (dm n p w) = [b, ofNibbles n (pairField p true), loByte w, hiByte w] ∧
      (dm n p w).longIndexPairOk = (p != 0)) : (cellLong pmDirect dmDirect pm dm).Encodes b := by
  intro x y z
  dsimp only
  split
  · next direct =>
    split
    · next data =>
      obtain ⟨bytes, ok⟩ := hdmDirect (hiNibble x) (ofBytes z y)
      exact ⟨by rw [bytes, ← direct, ofNibbles_pairField_eq data, loByte_ofBytes, hiByte_ofBytes], ok⟩
    · next program =>
      obtain ⟨bytes, ok⟩ := hpmDirect (hiNibble x) (ofBytes z y)
      exact ⟨by rw [bytes, ← direct, ofNibbles_pairField_eq (Bool.eq_false_iff.2 program), loByte_ofBytes,
        hiByte_ofBytes], ok⟩
  · next long =>
    split
    · next data =>
      obtain ⟨bytes, ok⟩ := hdm (hiNibble x) (pairOfField (loNibble x)) (ofBytes z y)
      exact ⟨by rw [bytes, ofNibbles_pairField_eq data, loByte_ofBytes, hiByte_ofBytes], by simpa [ok] using long⟩
    · next program =>
      obtain ⟨bytes, ok⟩ := hpm (hiNibble x) (pairOfField (loNibble x)) (ofBytes z y)
      exact ⟨by rw [bytes, ofNibbles_pairField_eq (Bool.eq_false_iff.2 program), loByte_ofBytes, hiByte_ofBytes],
        by simpa [ok] using long⟩

/-! The columns of the opcode map (R88), each row against the encoder; the last row of a match is the undefined one. -/

theorem opcodeColumn0_encodes (hi : BitVec 4) : (opcodeColumn0 hi).Encodes (ofNibbles hi 0x0#4) := by
  unfold opcodeColumn0
  split
  case h_13 => trivial
  all_goals exact fun _ => ⟨rfl, rfl⟩

theorem opcodeColumn1_encodes (hi : BitVec 4) : (opcodeColumn1 hi).Encodes (ofNibbles hi 0x1#4) := by
  unfold opcodeColumn1
  split
  case h_12 => trivial
  all_goals exact fun _ => ⟨rfl, rfl⟩

theorem opcodeColumn2_encodes (hi : BitVec 4) : (opcodeColumn2 hi).Encodes (ofNibbles hi 0x2#4) := by
  unfold opcodeColumn2
  split
  case h_11 => exact cellPair_encodes (fun _ _ => ⟨rfl, rfl⟩) fun _ _ => ⟨rfl, rfl⟩
  case h_12 => trivial
  all_goals exact cellWW_encodes fun _ _ => ⟨rfl, rfl⟩

theorem opcodeColumn3_encodes (hi : BitVec 4) : (opcodeColumn3 hi).Encodes (ofNibbles hi 0x3#4) := by
  unfold opcodeColumn3
  split
  case h_11 | h_12 | h_13 => exact cellPair_encodes (fun _ _ => ⟨rfl, rfl⟩) fun _ _ => ⟨rfl, rfl⟩
  case h_14 => trivial
  all_goals exact cellWW_encodes fun _ _ => ⟨rfl, rfl⟩

theorem opcodeColumn4_encodes (hi : BitVec 4) : (opcodeColumn4 hi).Encodes (ofNibbles hi 0x4#4) := by
  unfold opcodeColumn4
  split
  case h_12 => exact fun _ => ⟨rfl, rfl⟩
  case h_13 => trivial
  all_goals exact fun _ _ => ⟨rfl, rfl⟩

theorem opcodeColumn5_encodes (hi : BitVec 4) : (opcodeColumn5 hi).Encodes (ofNibbles hi 0x5#4) := by
  unfold opcodeColumn5
  split
  case h_13 => trivial
  all_goals exact fun _ _ => ⟨rfl, rfl⟩

theorem opcodeColumn6_encodes (hi : BitVec 4) : (opcodeColumn6 hi).Encodes (ofNibbles hi 0x6#4) := by
  unfold opcodeColumn6
  split
  case h_13 => exact fun _ _ => ⟨by rw [encode, hiByte_ofBytes, loByte_ofBytes]; rfl, rfl⟩
  case h_14 => trivial
  all_goals exact fun _ _ => ⟨rfl, rfl⟩

theorem opcodeColumn7_encodes (hi : BitVec 4) : (opcodeColumn7 hi).Encodes (ofNibbles hi 0x7#4) := by
  unfold opcodeColumn7
  split
  case h_1 | h_2 => exact fun _ _ => ⟨by rw [encode, ofNibbles_hi_lo]; rfl, rfl⟩
  case h_3 | h_4 =>
    exact cellLong_encodes (fun _ _ => ⟨rfl, rfl⟩) (fun _ _ => ⟨rfl, rfl⟩) (fun _ _ _ => ⟨rfl, rfl⟩)
      fun _ _ _ => ⟨rfl, rfl⟩
  case h_5 | h_6 => exact cellWW_encodes fun _ _ => ⟨rfl, rfl⟩
  case h_7 | h_8 => exact cellShort_encodes (fun _ _ _ => ⟨rfl, rfl⟩) fun _ _ _ => ⟨rfl, rfl⟩
  case h_9 => trivial

theorem opcodeColumnF_encodes (hi : BitVec 4) : (opcodeColumnF hi).Encodes (ofNibbles hi 0xF#4) := by
  unfold opcodeColumnF
  split
  case h_11 => trivial
  all_goals exact ⟨rfl, rfl⟩

/-- The whole opcode map: the nine columns above, and the six that carry an operand in the upper nibble. -/
theorem opcodeMap_encodes (hi : BitVec 4) (lo : BitVec 4) : (opcodeMap hi lo).Encodes (ofNibbles hi lo) := by
  unfold opcodeMap
  split
  case h_1 => exact opcodeColumn0_encodes hi
  case h_2 => exact opcodeColumn1_encodes hi
  case h_3 => exact opcodeColumn2_encodes hi
  case h_4 => exact opcodeColumn3_encodes hi
  case h_5 => exact opcodeColumn4_encodes hi
  case h_6 => exact opcodeColumn5_encodes hi
  case h_7 => exact opcodeColumn6_encodes hi
  case h_8 => exact opcodeColumn7_encodes hi
  case h_9 | h_10 | h_13 => exact fun _ => ⟨rfl, rfl⟩
  case h_11 => trivial
  case h_12 => exact fun _ => ⟨by rw [encode, Cond.code_ofCode], rfl⟩
  case h_14 => exact fun _ _ => ⟨by rw [encode, Cond.code_ofCode, hiByte_ofBytes, loByte_ofBytes], rfl⟩
  case h_15 => exact ⟨rfl, rfl⟩
  case h_16 =>
    obtain rfl : lo = 0xF#4 := by revert lo; decide
    exact opcodeColumnF_encodes hi

theorem opcodeCell_encodes (b : Byte) : (opcodeCell b).Encodes b := by
  have cell := opcodeMap_encodes (hiNibble b) (loNibble b)
  rwa [ofNibbles_hi_lo] at cell

/-- What a decoder's answer says of the cell of the first byte and of the bytes after it. -/
theorem decode_eq_ok {b : Byte} {tail rest : List Byte} {i : Instr} (decoded : decode (b :: tail) = .ok (i, rest)) :
    (opcodeCell b = .one i ∧ tail = rest) ∨
    (∃ f x, opcodeCell b = .two f ∧ tail = x :: rest ∧ i = f x) ∨
    (∃ f x y, opcodeCell b = .three f ∧ tail = x :: y :: rest ∧ i = f x y) ∨
    ∃ f x y z, opcodeCell b = .four f ∧ tail = x :: y :: z :: rest ∧ i = f x y z := by
  simp only [decode] at decoded
  split at decoded
  · cases decoded
  · next cell => cases decoded; exact .inl ⟨cell, rfl⟩
  · next f x r cell => cases decoded; exact .inr (.inl ⟨f, x, cell, rfl, rfl⟩)
  · next f x y r cell => cases decoded; exact .inr (.inr (.inl ⟨f, x, y, cell, rfl, rfl⟩))
  · next f x y z r cell => cases decoded; exact .inr (.inr (.inr ⟨f, x, y, z, cell, rfl, rfl⟩))
  · cases decoded

/-- Settles O2: the decoder splits the bytes as the cell of the first byte says, and every cell is the encoder's. -/
theorem encodeOfDecode : Obligations.EncodeOfDecode := by
  intro bytes rest i decoded
  cases bytes with
  | nil => cases decoded
  | cons b tail =>
    have encodes := opcodeCell_encodes b
    rcases decode_eq_ok decoded with ⟨cell, rfl⟩ | ⟨f, x, cell, rfl, rfl⟩ | ⟨f, x, y, cell, rfl, rfl⟩ |
      ⟨f, x, y, z, cell, rfl, rfl⟩ <;> rw [cell] at encodes
    case inl =>
      obtain ⟨bytes, ok⟩ := encodes
      exact ⟨by rw [bytes, List.singleton_append], ok⟩
    case inr.inl =>
      obtain ⟨bytes, ok⟩ := encodes x
      exact ⟨by rw [bytes]; rfl, ok⟩
    case inr.inr.inl =>
      obtain ⟨bytes, ok⟩ := encodes x y
      exact ⟨by rw [bytes]; rfl, ok⟩
    case inr.inr.inr =>
      obtain ⟨bytes, ok⟩ := encodes x y z
      exact ⟨by rw [bytes]; rfl, ok⟩

/-! ### Undefined first bytes, lengths and sample words -/

theorem decode_eq_undefined (b : Byte) (rest : List Byte) :
    decode (b :: rest) = .error (.undefinedOpcode b) ↔ opcodeCell b = .undefined := by
  refine ⟨fun decoded => ?_, decode_cons_undefined rest⟩
  simp only [decode] at decoded
  split at decoded
  case h_1 cell => exact cell
  all_goals cases decoded

/-- An instruction whose bytes decode has a first byte that gives its length. -/
theorem encodeLength_of_decode {i : Instr} (decoded : decode (encode i) = .ok (i, [])) :
    Laws.encodeLength.Statement i := by
  unfold Laws.encodeLength.Statement
  cases bytes : encode i with
  | nil => rw [bytes] at decoded; cases decoded
  | cons b tail =>
    rw [bytes] at decoded
    rw [List.headD_cons]
    rcases decode_eq_ok decoded with ⟨cell, rfl⟩ | ⟨f, x, cell, rfl, -⟩ | ⟨f, x, y, cell, rfl, -⟩ |
      ⟨f, x, y, z, cell, rfl, -⟩ <;> rw [cell] <;> rfl

/-- The first byte of every instruction, admitted by the encoding or not, gives its length (R70): an admitted one decodes, and
a long index on RR0 has the first byte and the length of one that does. -/
theorem encodeLength_statement (i : Instr) : Laws.encodeLength.Statement i := by
  have admitted {i : Instr} (ok : i.longIndexPairOk = true) : Laws.encodeLength.Statement i :=
    encodeLength_of_decode (by simpa using decodeOfEncode i [] ok)
  cases i with
  | ldcWXl n p w => exact Laws.encodeLength.ldcWXl n p w
  | ldcXlW p w n => exact Laws.encodeLength.ldcXlW p w n
  | ldeWXl n p w => exact Laws.encodeLength.ldeWXl n p w
  | ldeXlW p w n => exact Laws.encodeLength.ldeXlW p w n
  | _ => exact admitted rfl

/-- Every instruction has a first byte, whose cell has the instruction's length. -/
theorem encode_eq_cons (i : Instr) :
    ∃ b tail, encode i = b :: tail ∧ (opcodeCell b).length = some (tail.length + 1) := by
  have statement := encodeLength_statement i
  unfold Laws.encodeLength.Statement at statement
  cases bytes : encode i with
  | nil => rw [bytes] at statement; exact absurd statement (by decide)
  | cons b tail => rw [bytes] at statement; exact ⟨b, tail, rfl, statement⟩

/-- Settles O4: each word's bytes are computed and decoded. -/
theorem sampleWordsDecode : Obligations.SampleWordsDecode :=
  ⟨rfl, rfl, rfl, rfl, rfl, rfl⟩

end Sys2Proof
end

section
/-! PROOF. The frame of every instruction: which register-file locations, which memory byte and which flags it may change. One
rule per shared shape, then one case split over the instruction set from which the four frame statements follow. -/

namespace Sys2Proof.Machine

/-- What an instruction did to the two memories: nothing, or a store at the effective address of its memory operand, in program
memory of a part that supports it or in a fitted data-memory cell. -/
inductive StoresOnly (i : Instr) (s t : State) : Prop where
  | nothing (progMem : t.progMem = s.progMem) (dataMem : t.dataMem = s.dataMem)
  | program {ea : Int} {v : Byte} (at_ea : storesTo i s = some (.program, ea)) (nonneg : 0 ≤ ea)
      (inside : ea < s.cfg.progSize) (writable : s.cfg.progMemWritable = true)
      (progMem : t.progMem = s.progMem.write ea.toNat v) (dataMem : t.dataMem = s.dataMem)
  | data {ea : Int} {v : Byte} (at_ea : storesTo i s = some (.data, ea)) (nonneg : 0 ≤ ea)
      (fitted : (s.dataMem.find ea.toNat).isSome) (progMem : t.progMem = s.progMem)
      (dataMem : t.dataMem = s.dataMem.store ea.toNat v)

/-- The frame of one instruction. -/
structure Framed (i : Instr) (s t : State) : Prop where
  keeps : Keeps (regsWritten i s) s t
  stores : StoresOnly i s t
  flags : Config.flagsAddr ∉ regsWritten i s → (flagRow i).keeps s.flags t.flags
  mode : i ≠ .idle → i ≠ .stop → t.mode = s.mode

theorem SameMemory.storesOnly {i : Instr} {s t : State} (m : SameMemory s t) : StoresOnly i s t :=
  .nothing m.progMem m.dataMem

theorem regsWritten_of_destination {i : Instr} {l : Loc} (dest : destinationOf i = some l) (s : State) :
    regsWritten i s = addressOf l s ++ alsoWrites i s := by rw [regsWritten, dest]

theorem regsWritten_of_no_destination {i : Instr} (dest : destinationOf i = none) (s : State) :
    regsWritten i s = alsoWrites i s := by rw [regsWritten, dest, List.nil_append]

/-! ### One rule per shared shape -/

section
variable {i : Instr} {s t : State}

theorem Framed.of_aluWrite {f : Flags → Byte → Byte → Byte × Flags} {dst : Loc} {src : Src} {n : Nat}
    (ran : toOutcome (aluWrite f dst src n s) = .next t) (dest : destinationOf i = some dst) (also : alsoWrites i s = [])
    (row : ∀ old a b, (flagRow i).keeps old (f old a b).2) : Framed i s t := by
  obtain ⟨keeps, same, a, b, flags⟩ := aluWrite_keeps (toOutcome_eq_next.1 ran)
  have written : regsWritten i s = addressOf dst s := by rw [regsWritten_of_destination dest, also, List.append_nil]
  exact ⟨by rwa [written], same.storesOnly, fun _ => by rw [flags]; exact row s.flags a b, fun _ _ => same.mode⟩

theorem Framed.of_aluUnary {f : Flags → Byte → Byte × Flags} {dst : Loc} {n : Nat}
    (ran : toOutcome (aluUnary f dst n s) = .next t) (dest : destinationOf i = some dst) (also : alsoWrites i s = [])
    (row : ∀ old a, (flagRow i).keeps old (f old a).2) : Framed i s t := by
  obtain ⟨keeps, same, a, flags⟩ := aluUnary_keeps (toOutcome_eq_next.1 ran)
  have written : regsWritten i s = addressOf dst s := by rw [regsWritten_of_destination dest, also, List.append_nil]
  exact ⟨by rwa [written], same.storesOnly, fun _ => by rw [flags]; exact row s.flags a, fun _ _ => same.mode⟩

theorem Framed.of_aluTest {f : Flags → Byte → Byte → Byte × Flags} {dst : Loc} {src : Src} {n : Nat}
    (ran : toOutcome (aluTest f dst src n s) = .next t) (written : regsWritten i s = [])
    (row : ∀ old a b, (flagRow i).keeps old (f old a b).2) : Framed i s t := by
  obtain ⟨keeps, same, a, b, flags⟩ := aluTest_keeps (toOutcome_eq_next.1 ran)
  exact ⟨by rwa [written], same.storesOnly, fun _ => by rw [flags]; exact row s.flags a b, fun _ _ => same.mode⟩

/-- An instruction of no row of the flag table that does not touch the memories. -/
theorem Framed.of_keeps {W : List RegAddr} (keeps : Keeps W s t) (same : SameMemory s t)
    (flags : Config.flagsAddr ∉ W → t.flags = s.flags) (row : flagRow i = .none) (written : ∀ a, a ∈ W ↔ a ∈ regsWritten i s) :
    Framed i s t :=
  ⟨keeps.mono fun a => (written a).1, same.storesOnly,
    fun unwritten => by rw [row]; exact flags fun w => unwritten ((written _).1 w), fun _ _ => same.mode⟩

theorem Framed.of_loadTo {dst : Loc} {src : Src} {n : Nat} (ran : toOutcome (loadTo dst src n s) = .next t)
    (row : flagRow i = .none) (dest : destinationOf i = some dst) (also : alsoWrites i s = []) : Framed i s t := by
  obtain ⟨keeps, same, flags⟩ := loadTo_keeps (toOutcome_eq_next.1 ran)
  exact .of_keeps keeps same flags row fun a => by rw [regsWritten_of_destination dest, also, List.append_nil]

theorem Framed.of_memLoad {space : Space} {dst : WReg} {m : MemAddr} {n : Nat}
    (ran : toOutcome (memLoad space dst m n s) = .next t) (row : flagRow i = .none)
    (written : regsWritten i s = [s.wreg dst]) : Framed i s t := by
  obtain ⟨keeps, same, flags⟩ := memLoad_keeps (toOutcome_eq_next.1 ran)
  exact .of_keeps keeps same (fun w => flags fun e => w (by simp [e])) row fun a => by rw [written]

theorem Framed.of_memLoadStep {space : Space} {delta : Word} {dst : WReg} {p : PairNo}
    (ran : toOutcome (memLoadStep space delta dst p s) = .next t) (row : flagRow i = .none)
    (written : regsWritten i s = [s.wreg dst, s.wpair p, s.wpair p + 1]) : Framed i s t := by
  obtain ⟨keeps, same, flags⟩ := memLoadStep_keeps (toOutcome_eq_next.1 ran)
  exact .of_keeps keeps same flags row fun a => by rw [written]

theorem Framed.of_popTo {dst : Loc} (ran : toOutcome (popTo dst s) = .next t) (row : flagRow i = .none)
    (dest : destinationOf i = some dst) (also : alsoWrites i s = [Config.spAddr]) : Framed i s t := by
  obtain ⟨keeps, same, flags⟩ := popTo_keeps (toOutcome_eq_next.1 ran)
  refine .of_keeps keeps same (fun w => flags fun e => w (List.mem_cons_of_mem _ e)) row fun a => ?_
  rw [regsWritten_of_destination dest, also, List.mem_cons, List.mem_append, List.mem_singleton, or_comm]

theorem Framed.of_pushFrom {src : Loc} (ran : toOutcome (pushFrom src s) = .next t) (row : flagRow i = .none)
    (written : regsWritten i s = [Config.spAddr, s.sp - 1]) : Framed i s t := by
  obtain ⟨keeps, same, flags⟩ := pushFrom_keeps (toOutcome_eq_next.1 ran)
  exact .of_keeps keeps same (fun w => flags fun e => w (by simp [e])) row fun a => by rw [written]

/-- A store writes no register: the one instruction shape that changes a memory. -/
theorem Framed.of_memStore {space : Space} {m : MemAddr} {src : WReg} {n : Nat}
    (ran : toOutcome (memStore space m src n s) = .next t) (row : flagRow i = .none) (written : regsWritten i s = [])
    (dest : memDestination i = some (space, m)) : Framed i s t := by
  obtain ⟨keeps, mode, flags, ea, s1, v, operand, nonneg, change⟩ := memStore_keeps (toOutcome_eq_next.1 ran)
  have at_ea : storesTo i s = some (space, ea) := by rw [storesTo, dest]; simp only [operand]
  refine ⟨by rwa [written], ?_, fun _ => by rw [row]; exact flags, fun _ _ => mode⟩
  rcases change with ⟨rfl, writable, inside, dataMem, progMem⟩ | ⟨rfl, fitted, progMem, dataMem⟩
  · exact .program at_ea nonneg inside writable progMem dataMem
  · exact .data at_ea nonneg fitted progMem dataMem

end

/-! ### Every instruction -/

/-- The frame of every instruction, by its shared shape. -/
theorem exec_framed {i : Instr} {s t : State} (ran : exec i s = .next t) : Framed i s t := by
  cases i with
  | addWW | addWIw | addRR | addRIr | addRIm | adcWW | adcWIw | adcRR | adcRIr | adcRIm | subWW | subWIw | subRR | subRIr
  | subRIm | sbcWW | sbcWIw | sbcRR | sbcRIr | sbcRIm => exact .of_aluWrite ran rfl rfl fun _ _ _ => trivial
  | orWW | orWIw | orRR | orRIr | orRIm | andWW | andWIw | andRR | andRIr | andRIm | xorWW | xorWIw | xorRR | xorRIr
  | xorRIm => exact .of_aluWrite ran rfl rfl fun _ _ _ => ⟨rfl, rfl⟩
  | cpWW | cpWIw | cpRR | cpRIr | cpRIm => exact .of_aluTest ran rfl fun _ _ _ => trivial
  | tcmWW | tcmWIw | tcmRR | tcmRIr | tcmRIm | tmWW | tmWIw | tmRR | tmRIr | tmRIm =>
    exact .of_aluTest ran rfl fun _ _ _ => ⟨rfl, rfl⟩
  | rlR | rlIr | rlcR | rlcIr | rrR | rrIr | rrcR | rrcIr => exact .of_aluUnary ran rfl rfl fun _ _ => trivial
  | decR | decIr | incR | incIr | incW | sraR | sraIr => exact .of_aluUnary ran rfl rfl fun _ _ => rfl
  | comR | comIr => exact .of_aluUnary ran rfl rfl fun _ _ => ⟨rfl, rfl⟩
  | clrR | clrIr | ldWIm | ldWR | ldRW | ldWIw | ldIwW | ldRR | ldRIr | ldRIm | ldIrIm | ldIrR | ldWX | ldXW =>
    exact .of_loadTo ran rfl rfl rfl
  | ldcWIpw | ldcWXs | ldcWXl | ldcWDa | ldeWIpw | ldeWXs | ldeWXl | ldeWDa => exact .of_memLoad ran rfl rfl
  | ldcIpwW | ldcXsW | ldcXlW | ldcDaW | ldeIpwW | ldeXsW | ldeXlW | ldeDaW => exact .of_memStore ran rfl rfl rfl
  | ldcd | lded | ldci | ldei => exact .of_memLoadStep ran rfl rfl
  | popR | popIr => exact .of_popTo ran rfl rfl rfl
  | pushR | pushIr => exact .of_pushFrom ran rfl rfl
  | jpIpr =>
    obtain ⟨keeps, same, flags⟩ := jumpPair_keeps (toOutcome_eq_next.1 ran)
    exact .of_keeps keeps same (fun _ => flags) rfl fun _ => Iff.rfl
  | jpCcDa | jrCcRa =>
    cases ran
    obtain ⟨keeps, same, flags⟩ := jumpIf_keeps _ _ _ s
    exact .of_keeps keeps same (fun _ => flags) rfl fun _ => Iff.rfl
  | callIpr =>
    obtain ⟨keeps, same, flags⟩ := callPair_keeps (toOutcome_eq_next.1 ran)
    exact .of_keeps keeps same (fun w => flags fun e => w (List.mem_cons_of_mem _ e)) rfl fun _ => Iff.rfl
  | callDa =>
    obtain ⟨keeps, same, flags⟩ := callTo_keeps (toOutcome_eq_next.1 ran)
    exact .of_keeps keeps same (fun w => flags fun e => w (List.mem_cons_of_mem _ e)) rfl fun _ => Iff.rfl
  | ret =>
    obtain ⟨keeps, same, flags⟩ := returnFromCall_keeps (toOutcome_eq_next.1 ran)
    exact .of_keeps keeps same (fun _ => flags) rfl fun _ => Iff.rfl
  | iret =>
    obtain ⟨keeps, same⟩ := interruptReturn_keeps (toOutcome_eq_next.1 ran)
    exact ⟨keeps, same.storesOnly, fun _ => trivial, fun _ _ => same.mode⟩
  | di | ei =>
    cases ran
    exact ⟨(Keeps.setSym s _).trans (Keeps.advance _ 1), .nothing rfl rfl, fun _ => rfl, fun _ _ => rfl⟩
  | rcf | scf | ccf =>
    cases ran
    exact ⟨(Keeps.flags s _).trans (Keeps.advance _ 1), .nothing rfl rfl, fun _ => rfl, fun _ _ => rfl⟩
  | idle =>
    cases ran
    exact ⟨(Keeps.advance s 1).trans (Keeps.mode _ _), .nothing rfl rfl, fun _ => rfl, fun h => absurd rfl h⟩
  | stop =>
    cases ran
    exact ⟨(Keeps.advance s 1).trans (Keeps.mode _ _), .nothing rfl rfl, fun _ => rfl, fun _ h => absurd rfl h⟩
  | nop =>
    cases ran
    exact ⟨Keeps.advance s 1, .nothing rfl rfl, fun _ => rfl, fun _ _ => rfl⟩

/-- Settles O52: the register part of the frame. -/
theorem registerFrame : Obligations.RegisterFrame := fun _ _ _ ran => (exec_framed ran).keeps.get

/-- Settles O53: a store to either memory reads back elsewhere as before, and its address is the one left out. -/
theorem memoryFrame : Obligations.MemoryFrame := by
  intro i s t ran
  have moved {ea : Int} {a : Nat} {space : Space} (nonneg : 0 ≤ ea) (at_ea : storesTo i s = some (space, ea))
      (elsewhere : storesTo i s ≠ some (space, (a : Int))) : a ≠ ea.toNat := by
    rintro rfl
    exact elsewhere (by rw [at_ea, Int.toNat_of_nonneg nonneg])
  cases (exec_framed ran).stores with
  | nothing progMem dataMem => exact ⟨fun a _ => by rw [progMem], fun a _ => by rw [dataMem]⟩
  | program at_ea nonneg _ _ progMem dataMem =>
    exact ⟨fun a h => by rw [progMem, read_write, if_neg (moved nonneg at_ea h)], fun a _ => by rw [dataMem]⟩
  | data at_ea nonneg _ progMem dataMem =>
    exact ⟨fun a _ => by rw [progMem], fun a h => by rw [dataMem, find_store, if_neg (moved nonneg at_ea h)]⟩

/-- Settles O54: the flag part of the frame. -/
theorem flagTable : Obligations.FlagTable := fun _ _ _ ran => (exec_framed ran).flags

/-- Settles O55: the parts of the frame about parameters, platform answers, SP, SYM and the run mode. -/
theorem controlStateFrame : Obligations.ControlStateFrame := by
  intro i s t ran
  obtain ⟨keeps, -, -, mode⟩ := exec_framed ran
  exact ⟨keeps.cfg, keeps.inputs, keeps.sp, keeps.sym, mode⟩

end Sys2Proof.Machine
end

section
/-! PROOF. What every step keeps: the invariant of well-formed states, the parameters and the fitted cells, program memory that
cannot be written, and the halted modes. A step is a reset, a wait, a release, an interrupt entry or an instruction, and each
changes the configuration and the memories in few ways. -/

namespace Sys2Proof.Machine

/-! ### The part of the state the invariant is about -/

/-- A step that is no reset keeps the parameters and the unused places of registers, and stores at most one byte, in program
memory of a part that supports it or in a fitted data-memory cell. -/
structure KeepsStorage (s t : State) : Prop where
  cfg : t.cfg = s.cfg
  unused : ∀ a : RegAddr, ¬ s.isPlain a → t.regs[a.toNat]'a.isLt = s.regs[a.toNat]'a.isLt
  progMem : t.progMem = s.progMem ∨ s.cfg.progMemWritable = true ∧
    ∃ a v, a < s.cfg.progSize ∧ t.progMem = s.progMem.write a v
  dataMem : t.dataMem = s.dataMem ∨ ∃ a v, (s.dataMem.find a).isSome ∧ t.dataMem = s.dataMem.store a v

theorem Keeps.keepsStorage {W : List RegAddr} {s t : State} (keeps : Keeps W s t) (progMem : t.progMem = s.progMem)
    (dataMem : t.dataMem = s.dataMem) : KeepsStorage s t :=
  ⟨keeps.cfg, keeps.unused, .inl progMem, .inl dataMem⟩

theorem interruptEntry_keepsStorage {s t : State} (entered : interruptEntry s = .ok t) : KeepsStorage s t := by
  obtain ⟨⟨W, keeps⟩, same⟩ := interruptEntry_keeps entered
  exact keeps.keepsStorage same.progMem same.dataMem

/-- A release changes the run mode, or is an interrupt entry in run mode RUN. -/
theorem release_keepsStorage {reason : UnpredictableReason} {s t : State} (released : release reason s = .ok t) :
    KeepsStorage s t := by
  rcases release_ok released with ⟨-, entered⟩ | ⟨-, -, stays⟩ | ⟨-, -, resumes⟩
  · obtain ⟨cfg, unused, progMem, dataMem⟩ := interruptEntry_keepsStorage entered
    exact ⟨cfg, unused, progMem, dataMem⟩
  · rw [stays]; exact (Keeps.refl s).keepsStorage rfl rfl
  · rw [resumes]; exact (Keeps.mode s .run).keepsStorage rfl rfl

theorem exec_keepsStorage {i : Instr} {s t : State} (ran : exec i s = .next t) : KeepsStorage s t := by
  obtain ⟨keeps, stores, -, -⟩ := exec_framed ran
  cases stores with
  | nothing progMem dataMem => exact keeps.keepsStorage progMem dataMem
  | @program ea v _ nonneg inside writable progMem dataMem =>
    exact ⟨keeps.cfg, keeps.unused, .inr ⟨writable, ea.toNat, v, by omega, progMem⟩, .inl dataMem⟩
  | @data ea v _ _ fitted progMem dataMem =>
    exact ⟨keeps.cfg, keeps.unused, .inl progMem, .inr ⟨ea.toNat, v, fitted, dataMem⟩⟩

/-- Every step is a reset, or keeps the storage: using up the platform's answer is no part of it. -/
theorem step_keepsStorage {s t : State} (stepped : step s = .next t) :
    t = resetEvent s.dropInput ∨ KeepsStorage s t := by
  have of_dropInput (kept : KeepsStorage s.dropInput t) : KeepsStorage s t :=
    ⟨kept.cfg, kept.unused, kept.progMem, kept.dataMem⟩
  rcases step_next stepped with ⟨-, reset⟩ | ⟨-, waits⟩ | ⟨-, -, released⟩ | ⟨-, -, released⟩ | ⟨-, -, -, entered⟩ |
    ⟨-, i, -, ran⟩
  case inl => exact .inl reset
  all_goals right; apply of_dropInput
  · rw [waits]; exact (Keeps.refl _).keepsStorage rfl rfl
  · exact release_keepsStorage released
  · exact release_keepsStorage released
  · exact interruptEntry_keepsStorage entered
  · exact exec_keepsStorage ran

/-! ### The invariant -/

/-- The places of registers are cleared by a reset event, and its data memory has the addresses it had. -/
theorem wf_resetEvent {s : State} (wf : s.wf) : (resetEvent s).wf := by
  obtain ⟨params, progWf, progBound, rising, dataBound, -⟩ := wf
  refine ⟨params, progWf, progBound, rising_map rising _, fun c hc => ?_, fun a _ => ?_⟩
  · obtain ⟨d, hd, rfl⟩ := List.mem_map.1 hc
    exact dataBound d hd
  · exact Vector.getElem_replicate _

theorem KeepsStorage.wf {s t : State} (kept : KeepsStorage s t) (wf : s.wf) : t.wf := by
  obtain ⟨params, progWf, progBound, rising, dataBound, unused⟩ := wf
  have progMem : t.progMem.wf ∧ ∀ c ∈ t.progMem.cells, c.1 < t.cfg.progSize := by
    rw [kept.cfg]
    rcases kept.progMem with same | ⟨-, a, v, inside, written⟩
    · rw [same]; exact ⟨progWf, progBound⟩
    · rw [written]
      refine ⟨wf_write progWf a v, fun c hc => ?_⟩
      rcases mem_write_cells hc with rfl | old
      · exact inside
      · exact progBound c old
  have dataMem : t.dataMem.rising ∧ ∀ c ∈ t.dataMem.cells, c.1 < 8192 := by
    rcases kept.dataMem with same | ⟨a, v, fitted, stored⟩
    · rw [same]; exact ⟨rising, dataBound⟩
    · rw [stored]
      refine ⟨rising_store rising a v, fun c hc => ?_⟩
      have listed : c.1 ∈ s.dataMem.cells.map (·.1) := by
        rw [← addresses_store rising fitted v]; exact List.mem_map_of_mem hc
      obtain ⟨d, hd, same_address⟩ := List.mem_map.1 listed
      exact same_address ▸ dataBound d hd
  refine ⟨kept.cfg ▸ params, progMem.1, progMem.2, dataMem.1, dataMem.2, fun a ha => ?_⟩
  rw [isPlain_congr kept.cfg] at ha
  rw [kept.unused a ha, unused a ha]

/-- Settles O56: a reset event gives a well-formed state, and every other step keeps the storage of one. -/
theorem everyStepKeepsWellFormed : Obligations.EveryStepKeepsWellFormed := by
  intro s t wf stepped
  rcases step_keepsStorage stepped with rfl | kept
  · exact wf_resetEvent (s := s.dropInput) wf
  · exact kept.wf wf

/-- Settles O59: the only step that changes program memory stores on a part that supports it. -/
theorem maskedRomIsNeverWritten : Obligations.MaskedRomIsNeverWritten := by
  intro s t masked stepped
  rcases step_keepsStorage stepped with rfl | kept
  · rfl
  · rcases kept.progMem with same | ⟨writable, -⟩
    · exact same
    · rw [masked] at writable; cases writable

/-- Settles O58: a reset event gives the fitted cells new contents, and a store goes to a fitted cell. -/
theorem everyStepKeepsTheConfiguration : Obligations.EveryStepKeepsTheConfiguration := by
  intro s t ⟨_, _, _, rising, _⟩ stepped
  rcases step_keepsStorage stepped with rfl | kept
  · exact ⟨rfl, List.map_map ..⟩
  · refine ⟨kept.cfg, ?_⟩
    rcases kept.dataMem with same | ⟨a, v, fitted, stored⟩
    · rw [same]
    · rw [stored]; exact addresses_store rising fitted v

/-- Settles O57: the parameters are the defaults, both memories are empty and every place holds the reset byte. -/
theorem resetIsWellFormed : Obligations.ResetIsWellFormed := by
  refine ⟨?params, State.reset_progMem_wf, ?progBound, State.reset_dataMem_rising, ?dataBound, fun a _ => ?unused⟩
  case params => decide
  case progBound | dataBound => intro c hc; cases hc
  case unused => exact Vector.getElem_replicate _

/-! ### Halted modes -/

theorem IrqRequest.externalPending_eq_true {q : IrqRequest} : q.externalPending = true ↔ q = .external := by
  cases q <;> simp [IrqRequest.externalPending]

/-- Settles O14: the steps that start in Idle or Stop mode and are neither a reset nor a wait are releases by a request. -/
theorem haltedModesAreLeftOnlyByRequests : Obligations.HaltedModesAreLeftOnlyByRequests := by
  intro s t stepped
  rcases step_next stepped with ⟨reset, -⟩ | ⟨-, waits⟩ | ⟨idle, pending, -⟩ | ⟨stop, external, -⟩ | ⟨run, -⟩ | ⟨run, -⟩
  · exact ⟨fun _ _ => .inl reset, fun _ _ => .inl reset⟩
  · have same : t.mode = s.mode := by rw [waits, State.dropInput_mode]
    exact ⟨fun idle left => absurd (same.trans idle) left, fun stop left => absurd (same.trans stop) left⟩
  · exact ⟨fun _ _ => .inr pending, fun stop => nomatch idle.symm.trans stop⟩
  · exact ⟨fun idle => (nomatch stop.symm.trans idle), fun _ _ => .inr (IrqRequest.externalPending_eq_true.1 external)⟩
  all_goals exact ⟨fun idle => (nomatch run.symm.trans idle), fun stop => nomatch run.symm.trans stop⟩

end Sys2Proof.Machine
end

section
/-! PROOF. The register file and the operand forms: reads after writes, refused registers, FLAGS as a register, the locations
and effective addresses that operands name (10_state.md R20 to R33, 30_encoding.md R72 to R83, 40_load.md R112). -/

namespace Sys2Proof.Machine

/-! ### Addresses and values -/

/-- Working register n stands at WR_BASE + n, modulo 256 (R22, R72). -/
theorem wreg_eq_ofNat (s : State) (n : WReg) : s.wreg n = BitVec.ofNat 8 (s.cfg.wrBase.toNat + n.toNat) := by
  apply BitVec.eq_of_toNat_eq
  simp [State.wreg]

/-- An 8-bit sum is the sum of the numbers modulo 256 (R78). -/
theorem add_eq_ofNat_mod (a b : Byte) : a + b = BitVec.ofNat 8 ((a.toNat + b.toNat) % 256) := by
  apply BitVec.eq_of_toNat_eq
  simp

/-- The value of a pair is its high byte times 256 plus its low byte (R23). -/
theorem toNat_ofBytes (hi lo : Byte) : (ofBytes hi lo).toNat = hi.toNat * 256 + lo.toNat := toNat_append_eq_add hi lo

/-! ### Reads, writes and refusals -/

theorem refuses_eq_true_iff {s : State} {a : RegAddr} :
    s.refuses a = true ↔ a ∉ [Config.flagsAddr, Config.spAddr, s.cfg.symAddr] ∧
      (inRanges s.cfg.periph a = true ∨ inRanges s.cfg.unimpl a = true) := by
  simp [State.refuses, and_assoc]

/-- Settles O16, by the laws of `get` after `put`. -/
theorem registerReadAfterWrite : Obligations.RegisterReadAfterWrite := by
  intro s t a v ha written
  obtain ⟨accepted, rfl⟩ := writeReg_eq_ok.1 written
  have read_back : readReg a (s.put a v) = .ok (v, s.put a v) :=
    readReg_eq_ok.2 ⟨by rw [refuses_put, accepted], (get_put_self ha v).symm, (afterRead_of_ne ha).symm⟩
  have read_other (b : RegAddr) (w : Byte) (hb : b ≠ Config.flagsAddr) (hba : b ≠ a) (read : readReg b s = .ok (w, s)) :
      readReg b (s.put a v) = .ok (w, s.put a v) := by
    obtain ⟨readable, rfl, -⟩ := readReg_eq_ok.1 read
    exact readReg_eq_ok.2 ⟨by rw [refuses_put, readable], (get_put_of_ne hb hba v).symm, (afterRead_of_ne hb).symm⟩
  exact ⟨read_back, read_other, by simp, by rw [State.put_flags, if_neg ha], by simp, by simp, by simp, by simp, by simp,
    by simp, fun n => by rw [wreg_put, wreg_eq_ofNat]⟩

/-- Settles O17: the refusal of R33 case 4 decides both accesses. -/
theorem refusedRegistersFault : Obligations.RefusedRegistersFault := by
  intro s a v
  constructor
  · intro listed unnamed
    have refused : s.refuses a = true := refuses_eq_true_iff.2 ⟨unnamed, listed⟩
    exact ⟨by rw [readReg, if_pos refused], by rw [writeReg, if_pos refused]⟩
  · intro accessible
    have accepted : s.refuses a = false := by
      rw [← Bool.not_eq_true, refuses_eq_true_iff]
      rintro ⟨unnamed, listed⟩
      rcases accessible with ⟨not_periph, not_unimpl⟩ | named
      · rw [not_periph, not_unimpl] at listed; simp at listed
      · exact unnamed named
    exact ⟨⟨_, _, readReg_eq_ok.2 ⟨accepted, rfl, rfl⟩⟩, _, writeReg_eq_ok.2 ⟨accepted, rfl⟩⟩

/-- Settles O18: a byte read from D5H gives the flags back when it is written, so its bits 7..4 are C, Z, S, V. -/
theorem flagsRegisterBits : Obligations.FlagsRegisterBits := by
  intro s v
  refine ⟨writeReg_eq_ok.2 ⟨refuses_flags s, rfl⟩, s.get Config.flagsAddr,
    readReg_eq_ok.2 ⟨refuses_flags s, rfl, rfl⟩, ?_⟩
  have bits : Flags.ofByte (s.get Config.flagsAddr) = s.flags := ofByte_get_flags s
  exact ⟨congrArg Flags.c bits, congrArg Flags.z bits, congrArg Flags.s bits, congrArg Flags.v bits⟩

/-! ### Operand forms -/

/-- Settles O20: each form is the model's `resolve`, with WR_BASE + n and the index sum as numbers. -/
theorem registerOperandForms : Obligations.RegisterOperandForms := by
  refine ⟨fun s n => ?w, fun s a => rfl, fun s n => ?iw, fun s a => rfl, fun s off n i t read => ?x, fun s v => rfl⟩
  case w => rw [Loc.resolve, wreg_eq_ofNat]
  case iw => rw [Loc.resolve, wreg_eq_ofNat]
  case x => simp only [Loc.resolve, read, ok_bind, pure_eq_ok, add_eq_ofNat_mod]

/-- Two bytes that can be read one after the other are the value of the pair. -/
theorem readPair_of_reads {s s1 s2 : State} {a : RegAddr} {hi lo : Byte} (high : readReg a s = .ok (hi, s1))
    (low : readReg (a + 1) s1 = .ok (lo, s2)) : readPair a s = .ok (ofBytes hi lo, s2) := by
  simp only [readPair, high, low, ok_bind, pure_eq_ok]

/-- Settles O21: each form is the value of the pair, as a number, plus its offset. -/
theorem memoryOperandForms : Obligations.MemoryOperandForms := by
  intro s p hi lo _ _ high low
  have pair : readPair (s.wpair p) s = .ok (ofBytes hi lo, s) := readPair_of_reads high low
  have value : ((ofBytes hi lo).toNat : Int) = hi.toNat * 256 + lo.toNat := by rw [toNat_ofBytes]; push_cast; rfl
  refine ⟨?irr, fun off => ?xs, fun off => ?xl, fun a => rfl⟩
  case irr => simp only [MemAddr.ea, pair, ok_bind, pure_eq_ok, value]
  case xs => simp only [MemAddr.ea, pair, ok_bind, pure_eq_ok, value]
  case xl => simp only [MemAddr.ea, pair, ok_bind, pure_eq_ok, value]

end Sys2Proof.Machine
end

section
/-! PROOF. The results of the arithmetic instructions, of the tests under mask and of SRA (41_arithmetic.md,
44_bit_manipulation.md, 45_rotate_shift.md R195): the computations as exact arithmetic, then each instruction by its shared
shape. -/

namespace Sys2Proof.Machine

/-! ### Addition and subtraction -/

/-- The sign bit of a byte and its signed value. -/
theorem sign_cases (a : Byte) :
    (a.msb = false ∧ a.toInt = a.toNat ∧ a.toNat < 128) ∨ (a.msb = true ∧ a.toInt = a.toNat - 256 ∧ 128 ≤ a.toNat) := by
  have bound := a.isLt
  by_cases h : a.toNat < 128
  · exact .inl ⟨by rw [BitVec.msb_eq_decide]; simpa using h, by rw [BitVec.toInt_eq_toNat_cond, if_pos (by omega)], h⟩
  · refine .inr ⟨by rw [BitVec.msb_eq_decide]; simpa using h, ?_, by omega⟩
    rw [BitVec.toInt_eq_toNat_cond, if_neg (by omega)]; rfl

theorem toNat_ofNat_bool (c : Bool) : (BitVec.ofNat 8 c.toNat).toNat = c.toNat := by cases c <;> rfl

/-- The result of add8 is the 8-bit sum. -/
theorem ofNat_sum (a b : Byte) (cin : Bool) :
    BitVec.ofNat 8 (a.toNat + b.toNat + cin.toNat) = a + b + BitVec.ofNat 8 cin.toNat := by
  apply BitVec.eq_of_toNat_eq
  simp

/-- The result of sub8 is the 8-bit difference. -/
theorem ofInt_difference (a b : Byte) (bin : Bool) :
    BitVec.ofInt 8 ((a.toNat : Int) - b.toNat - bin.toNat) = a - b - BitVec.ofNat 8 bin.toNat := by
  have borrow := bin.toNat_lt
  apply BitVec.eq_of_toNat_eq
  simp only [BitVec.toNat_ofInt, BitVec.toNat_sub, toNat_ofNat_bool]
  omega

theorem toNat_difference (a b : Byte) (bin : Bool) :
    ((a - b - BitVec.ofNat 8 bin.toNat).toNat : Int) = ((a.toNat : Int) - b.toNat - bin.toNat) % 256 := by
  rw [← ofInt_difference, BitVec.toNat_ofInt, Int.toNat_of_nonneg (Int.emod_nonneg _ (by decide))]
  rfl

/-- The overflow of a sum, read off the sign bits, is the exact signed overflow (R141). -/
theorem sum_overflow (a b : Byte) (cin : Bool) :
    (a.msb == b.msb && (a + b + BitVec.ofNat 8 cin.toNat).msb != a.msb) =
      decide (a.toInt + b.toInt + cin.toNat < -128 ∨ a.toInt + b.toInt + cin.toNat > 127) := by
  have result : (a + b + BitVec.ofNat 8 cin.toNat).toNat = (a.toNat + b.toNat + cin.toNat) % 256 := by simp
  have carry := cin.toNat_lt
  rcases sign_cases a with ⟨sa, ia, na⟩ | ⟨sa, ia, na⟩ <;> rcases sign_cases b with ⟨sb, ib, nb⟩ | ⟨sb, ib, nb⟩ <;>
    rcases sign_cases (a + b + BitVec.ofNat 8 cin.toNat) with ⟨sr, -, nr⟩ | ⟨sr, -, nr⟩ <;>
    simp [sa, sb, sr, ia, ib] <;> omega

theorem difference_overflow (a b : Byte) (bin : Bool) :
    (a.msb != b.msb && (a - b - BitVec.ofNat 8 bin.toNat).msb == b.msb) =
      decide (a.toInt - b.toInt - bin.toNat < -128 ∨ a.toInt - b.toInt - bin.toNat > 127) := by
  have result := toNat_difference a b bin
  have borrow := bin.toNat_lt
  rcases sign_cases a with ⟨sa, ia, na⟩ | ⟨sa, ia, na⟩ <;> rcases sign_cases b with ⟨sb, ib, nb⟩ | ⟨sb, ib, nb⟩ <;>
    rcases sign_cases (a - b - BitVec.ofNat 8 bin.toNat) with ⟨sr, -, nr⟩ | ⟨sr, -, nr⟩ <;>
    simp [sa, sb, sr, ia, ib] <;> omega

theorem add8_eq (a b : Byte) (cin : Bool) :
    add8 a b cin = (a + b + BitVec.ofNat 8 cin.toNat, sumFlags a b cin) := by
  rw [add8, sumFlags, zeroSign, ← sum_overflow, ofNat_sum, ← BitVec.msb_eq_toInt]

theorem sub8_eq (a b : Byte) (bin : Bool) :
    sub8 a b bin = (a - b - BitVec.ofNat 8 bin.toNat, differenceFlags a b bin) := by
  have borrow : ((a.toNat : Int) - b.toNat - bin.toNat < 0) = (a.toNat < b.toNat + bin.toNat) := propext (by omega)
  simp only [sub8, differenceFlags, zeroSign, ← difference_overflow, ofInt_difference, ← BitVec.msb_eq_toInt, borrow]

/-- Settles O22: the results are the 8-bit sum and difference, and V read off the sign bits is the exact overflow. -/
theorem addAndSubtractFlagsExact : Obligations.AddAndSubtractFlagsExact := by
  intro a b cin
  refine ⟨BitVec.toNat_ofNat _ _, ?_, rfl, ?_, ?_, rfl⟩
  · rw [add8_eq]
  · rw [sub8_eq, toNat_difference]
  · rw [sub8_eq]

/-- With no carry in, the carry term vanishes. -/
theorem add_ofNat_false (a : Byte) : a + BitVec.ofNat 8 false.toNat = a := BitVec.add_zero a

theorem sub_ofNat_false (a : Byte) : a - BitVec.ofNat 8 false.toNat = a := BitVec.sub_zero a

/-! ### The computations of the instructions -/

theorem aluAdd_eq (old : Flags) (a b : Byte) : aluAdd old a b = (a + b, sumFlags a b false) := by
  rw [aluAdd, add8_eq, add_ofNat_false]

theorem aluAdc_eq (old : Flags) (a b : Byte) :
    aluAdc old a b = (a + b + BitVec.ofNat 8 old.c.toNat, sumFlags a b old.c) := add8_eq a b old.c

theorem aluSub_eq (old : Flags) (a b : Byte) : aluSub old a b = (a - b, differenceFlags a b false) := by
  rw [aluSub, sub8_eq, sub_ofNat_false]

theorem aluSbc_eq (old : Flags) (a b : Byte) :
    aluSbc old a b = (a - b - BitVec.ofNat 8 old.c.toNat, differenceFlags a b old.c) := sub8_eq a b old.c

theorem aluCp_flags (old : Flags) (a b : Byte) : (aluCp old a b).2 = differenceFlags a b false := by
  rw [aluCp, sub8_eq]

theorem aluTm_flags (old : Flags) (a b : Byte) : (aluTm old a b).2 = logicResultFlags old (a &&& b) :=
  logicFlags_eq old (a &&& b)

theorem aluTcm_flags (old : Flags) (a b : Byte) :
    (aluTcm old a b).2 = logicResultFlags old ((a ^^^ 0xFF#8) &&& b) := by
  rw [aluTcm, logicFlags_eq, not_eq_xor_ff]

/-- Only 7FH, which is +127, overflows by one more (41_arithmetic.md R146). -/
theorem eq_7F_iff (a : Byte) : a = 0x7F#8 ↔ a.toInt + 1 > 127 := by
  revert a; decide

/-- Only 80H, which is -128, overflows by one less (41_arithmetic.md R145). -/
theorem eq_80_iff (a : Byte) : a = 0x80#8 ↔ a.toInt - 1 < -128 := by
  revert a; decide

theorem aluInc_eq (old : Flags) (a : Byte) :
    aluInc old a = (a + 1, zeroSign old.c (decide (a.toInt + 1 > 127)) (a + 1)) := by
  simp only [aluInc, zeroSign, BitVec.msb_eq_toInt, eq_7F_iff]

theorem aluDec_eq (old : Flags) (a : Byte) :
    aluDec old a = (a - 1, zeroSign old.c (decide (a.toInt - 1 < -128)) (a - 1)) := by
  simp only [aluDec, zeroSign, BitVec.msb_eq_toInt, eq_80_iff]

/-- Bits 7..1 one place down under a copy of bit 7: the signed value halved towards minus infinity (45_rotate_shift.md
R195). -/
theorem sign_append_high (a : Byte) :
    BitVec.ofBool (a.getLsbD 7) ++ a.extractLsb' 1 7 = BitVec.ofInt 8 (a.toInt / 2) := by
  rw [ofBool_append_high, toNat_getLsbD_seven]
  apply BitVec.eq_of_toNat_eq
  rw [BitVec.toNat_ofNat, BitVec.toNat_ofInt]
  rcases sign_cases a with ⟨-, value, range⟩ | ⟨-, value, range⟩ <;> rw [value] <;> omega

/-- Bit 0 is the remainder of the signed value. -/
theorem getLsbD_zero_eq_remainder (a : Byte) : a.getLsbD 0 = decide (a.toInt % 2 = 1) := by
  rw [getLsbD_zero_eq_decide, decide_eq_decide]
  rcases sign_cases a with ⟨-, value, -⟩ | ⟨-, value, -⟩ <;> rw [value] <;> omega

theorem aluSra_eq (old : Flags) (a : Byte) :
    aluSra old a = (BitVec.ofInt 8 (a.toInt / 2),
      zeroSign (decide (a.toInt % 2 = 1)) false (BitVec.ofInt 8 (a.toInt / 2))) := by
  simp only [aluSra, sign_append_high, getLsbD_zero_eq_remainder, zeroSign, BitVec.msb_eq_toInt]

/-! ### The instructions that write a destination -/

theorem add_hasWriteShape : FiveForms .addWW .addWIw .addRR .addRIr .addRIm (HasWriteShape aluAdd) :=
  ⟨fun _ _ _ => rfl, fun _ _ _ => rfl, fun _ _ _ => rfl, fun _ _ _ => rfl, fun _ _ _ => rfl⟩

theorem adc_hasWriteShape : FiveForms .adcWW .adcWIw .adcRR .adcRIr .adcRIm (HasWriteShape aluAdc) :=
  ⟨fun _ _ _ => rfl, fun _ _ _ => rfl, fun _ _ _ => rfl, fun _ _ _ => rfl, fun _ _ _ => rfl⟩

theorem sub_hasWriteShape : FiveForms .subWW .subWIw .subRR .subRIr .subRIm (HasWriteShape aluSub) :=
  ⟨fun _ _ _ => rfl, fun _ _ _ => rfl, fun _ _ _ => rfl, fun _ _ _ => rfl, fun _ _ _ => rfl⟩

theorem sbc_hasWriteShape : FiveForms .sbcWW .sbcWIw .sbcRR .sbcRIr .sbcRIm (HasWriteShape aluSbc) :=
  ⟨fun _ _ _ => rfl, fun _ _ _ => rfl, fun _ _ _ => rfl, fun _ _ _ => rfl, fun _ _ _ => rfl⟩

theorem inc_hasUnaryShape : TwoForms .incR .incIr (HasUnaryShape aluInc) := ⟨fun _ _ => rfl, fun _ _ => rfl⟩

theorem incW_hasUnaryShape (n : WReg) : HasUnaryShape aluInc (.incW n) (.w n) := fun _ => rfl

theorem dec_hasUnaryShape : TwoForms .decR .decIr (HasUnaryShape aluDec) := ⟨fun _ _ => rfl, fun _ _ => rfl⟩

theorem sra_hasUnaryShape : TwoForms .sraR .sraIr (HasUnaryShape aluSra) := ⟨fun _ _ => rfl, fun _ _ => rfl⟩

/-- Settles O24: every form of ADD has the two-operand shape of the sum without a carry in. -/
theorem addResult : Obligations.AddResult := add_hasWriteShape.imp (HasWriteShape.computes aluAdd_eq)

/-- Settles O25: every form of ADC has the two-operand shape of the sum with the old C. -/
theorem adcResult : Obligations.AdcResult := adc_hasWriteShape.imp (HasWriteShape.computes aluAdc_eq)

/-- Settles O26: every form of SUB has the two-operand shape of the difference without a borrow in. -/
theorem subResult : Obligations.SubResult := sub_hasWriteShape.imp (HasWriteShape.computes aluSub_eq)

/-- Settles O27: every form of SBC has the two-operand shape of the difference with the old C as the borrow. -/
theorem sbcResult : Obligations.SbcResult := sbc_hasWriteShape.imp (HasWriteShape.computes aluSbc_eq)

/-- Settles O31: INC and DEC have the one-operand shape, and overflow at +127 and -128 alone. -/
theorem incrementAndDecrementResults : Obligations.IncrementAndDecrementResults :=
  ⟨inc_hasUnaryShape.imp (HasUnaryShape.computesUnary aluInc_eq),
    fun n => (incW_hasUnaryShape n).computesUnary aluInc_eq,
    dec_hasUnaryShape.imp (HasUnaryShape.computesUnary aluDec_eq)⟩

/-- Settles O33: SRA has the one-operand shape of the signed halving. -/
theorem shiftRightArithmeticResult : Obligations.ShiftRightArithmeticResult :=
  sra_hasUnaryShape.imp (HasUnaryShape.computesUnary aluSra_eq)

/-! ### The instructions that only set flags -/

/-- The instruction's meaning is the test shape of computation f on its own operands and length. -/
def HasTestShape (f : Flags → Byte → Byte → Byte × Flags) (i : Instr) (dst : Loc) (src : Src) : Prop :=
  ∀ s, exec i s = toOutcome (aluTest f dst src i.length s)

/-- The converse of `aluTest_ok`: the reads of the operands leave the flags the computation sees. -/
theorem aluTest_of_operands {f : Flags → Byte → Byte → Byte × Flags} {dst : Loc} {src : Src} {n : Nat} {s s1 s2 : State}
    {a b : Byte} (ha : dst.value s = .ok (a, s1)) (hb : src.value s1 = .ok (b, s2)) :
    aluTest f dst src n s = .ok ({ s2 with flags := (f s.flags a b).2 }.advance n) := by
  obtain ⟨-, -, flags_eq, -⟩ := ((Loc.value_sameButDraws ha).trans (Src.value_sameButDraws hb)).fields
  simp [aluTest, ha, hb, flags_eq]

theorem HasTestShape.tests {f : Flags → Byte → Byte → Byte × Flags} {flags : Flags → Byte → Byte → Flags} {i : Instr}
    {dst : Loc} {src : Src} (hf : ∀ old a b, (f old a b).2 = flags old a b) (shape : HasTestShape f i dst src) :
    Tests flags i dst src := by
  intro s a s1 b s2 ha hb
  rw [shape, aluTest_of_operands ha hb, toOutcome_ok, hf]

theorem cp_hasTestShape : FiveForms .cpWW .cpWIw .cpRR .cpRIr .cpRIm (HasTestShape aluCp) :=
  ⟨fun _ _ _ => rfl, fun _ _ _ => rfl, fun _ _ _ => rfl, fun _ _ _ => rfl, fun _ _ _ => rfl⟩

theorem tm_hasTestShape : FiveForms .tmWW .tmWIw .tmRR .tmRIr .tmRIm (HasTestShape aluTm) :=
  ⟨fun _ _ _ => rfl, fun _ _ _ => rfl, fun _ _ _ => rfl, fun _ _ _ => rfl, fun _ _ _ => rfl⟩

theorem tcm_hasTestShape : FiveForms .tcmWW .tcmWIw .tcmRR .tcmRIr .tcmRIm (HasTestShape aluTcm) :=
  ⟨fun _ _ _ => rfl, fun _ _ _ => rfl, fun _ _ _ => rfl, fun _ _ _ => rfl, fun _ _ _ => rfl⟩

/-- Settles O28: every form of CP has the test shape of the difference. -/
theorem cpFlags : Obligations.CpFlags := cp_hasTestShape.imp (HasTestShape.tests aluCp_flags)

/-- Settles O30: every form of TM and TCM has the test shape of its masked value. -/
theorem testUnderMaskFlags : Obligations.TestUnderMaskFlags :=
  ⟨tm_hasTestShape.imp (HasTestShape.tests aluTm_flags), tcm_hasTestShape.imp (HasTestShape.tests aluTcm_flags)⟩

/-! ### FLAGS as the destination -/

/-- The instruction faults whenever its destination operand resolves to FLAGS. -/
def FaultsOnFlags (i : Instr) (dst : Loc) : Prop :=
  ∀ s t, dst.resolve s = .ok (Config.flagsAddr, t) → exec i s = .fault (.unpredictable .flagsDestination)

theorem HasWriteShape.faultsOnFlags {f : Flags → Byte → Byte → Byte × Flags} {i : Instr} {dst : Loc} {src : Src}
    (shape : HasWriteShape f i dst src) : FaultsOnFlags i dst := by
  intro s t resolved
  rw [shape]
  simp only [aluWrite, resolved, ok_bind, if_true, toOutcome_error]

theorem HasUnaryShape.faultsOnFlags {f : Flags → Byte → Byte × Flags} {i : Instr} {dst : Loc}
    (shape : HasUnaryShape f i dst) : FaultsOnFlags i dst := by
  intro s t resolved
  rw [shape]
  simp only [aluUnary, resolved, ok_bind, if_true, toOutcome_error]

/-- Settles O34: both shapes look at the destination before they read or write anything. -/
theorem flagsDestinationIsUnpredictable : Obligations.FlagsDestinationIsUnpredictable :=
  ⟨add_hasWriteShape.imp HasWriteShape.faultsOnFlags, adc_hasWriteShape.imp HasWriteShape.faultsOnFlags,
    sub_hasWriteShape.imp HasWriteShape.faultsOnFlags, sbc_hasWriteShape.imp HasWriteShape.faultsOnFlags,
    and_hasWriteShape.imp HasWriteShape.faultsOnFlags, or_hasWriteShape.imp HasWriteShape.faultsOnFlags,
    xor_hasWriteShape.imp HasWriteShape.faultsOnFlags, fun n => (incW_hasUnaryShape n).faultsOnFlags,
    inc_hasUnaryShape.imp HasUnaryShape.faultsOnFlags, dec_hasUnaryShape.imp HasUnaryShape.faultsOnFlags,
    com_hasUnaryShape.imp HasUnaryShape.faultsOnFlags, rl_hasUnaryShape.imp HasUnaryShape.faultsOnFlags,
    rlc_hasUnaryShape.imp HasUnaryShape.faultsOnFlags, rr_hasUnaryShape.imp HasUnaryShape.faultsOnFlags,
    rrc_hasUnaryShape.imp HasUnaryShape.faultsOnFlags, sra_hasUnaryShape.imp HasUnaryShape.faultsOnFlags⟩

end Sys2Proof.Machine
end

section
/-! PROOF. The results of the load instructions, 40_load.md R110 to R119: the forward rules of their shared shapes, then each
instruction by its shape. -/

namespace Sys2Proof.Machine

/-! ### The shapes, forwards -/

theorem writeReg_of_accepted {a : RegAddr} {s : State} (accepted : s.refuses a = false) (v : Byte) :
    writeReg a v s = .ok (s.put a v) := writeReg_eq_ok.2 ⟨accepted, rfl⟩

/-- The converse of `loadTo_ok`. -/
theorem loadTo_of_operands {dst : Loc} {src : Src} {n : Nat} {s s1 s2 : State} {d : RegAddr} {v : Byte}
    (hdst : dst.resolve s = .ok (d, s1)) (hsrc : src.value s1 = .ok (v, s2)) (accepted : s.refuses d = false) :
    loadTo dst src n s = .ok ((s2.put d v).advance n) := by
  have reads : SameButDraws s s2 := (Loc.resolve_sameButDraws hdst).trans (Src.value_sameButDraws hsrc)
  have writable : s2.refuses d = false := (reads.refuses d).trans accepted
  simp [loadTo, hdst, hsrc, writeReg_of_accepted writable]

/-- A memory read depends on the parameters and the memories alone. -/
theorem SameButDraws.memRead {s t : State} (h : SameButDraws s t) (space : Space) (a : Int) :
    memRead space a t = Machine.memRead space a s := by
  unfold SameButDraws at h; rw [h]; rfl

/-- The converse of `memLoad_ok`. -/
theorem memLoad_of_read {space : Space} {dst : WReg} {m : MemAddr} {n : Nat} {s s1 : State} {ea : Int} {v : Byte}
    (operand : m.ea s = .ok (ea, s1)) (read : memRead space ea s = .ok v) (accepted : s.refuses (s.wreg dst) = false) :
    memLoad space dst m n s = .ok ((s1.put (s.wreg dst) v).advance n) := by
  have same : SameButDraws s s1 := MemAddr.ea_sameButDraws operand
  have writable : s1.refuses (s.wreg dst) = false := (same.refuses _).trans accepted
  simp [memLoad, operand, same.memRead, read, same.wreg, writeReg_of_accepted writable]

/-- A load whose memory read faults does so before it writes the register. -/
theorem memLoad_of_fault {space : Space} {dst : WReg} {m : MemAddr} {n : Nat} {s s1 : State} {ea : Int} {f : Fault}
    (operand : m.ea s = .ok (ea, s1)) (faulted : memRead space ea s = .error f) :
    memLoad space dst m n s = .error f := by
  have same : SameButDraws s s1 := MemAddr.ea_sameButDraws operand
  simp [memLoad, operand, same.memRead, faulted]

/-- A store is the memory write at its effective address, of the register's value. -/
theorem memStore_of_operands {space : Space} {m : MemAddr} {src : WReg} {n : Nat} {s s1 s2 : State} {ea : Int} {v : Byte}
    (operand : m.ea s = .ok (ea, s1)) (value : readReg (s.wreg src) s1 = .ok (v, s2)) :
    memStore space m src n s = (do let t ← memWrite space ea v s2; return t.advance n) := by
  simp [memStore, operand, (MemAddr.ea_sameButDraws operand).wreg, value]

/-! ### LD and CLR -/

/-- The instruction's meaning is the load shape on its own operands and length. -/
def HasLoadShape (i : Instr) (dst : Loc) (src : Src) : Prop := ∀ s, exec i s = toOutcome (loadTo dst src i.length s)

theorem HasLoadShape.loads {i : Instr} {dst : Loc} {src : Src} (shape : HasLoadShape i dst src) : Loads i dst src := by
  intro s d s1 v s2 hdst hsrc accepted
  rw [shape, loadTo_of_operands hdst hsrc accepted, toOutcome_ok]

theorem clr_hasLoadShape : TwoForms .clrR .clrIr fun i dst => HasLoadShape i dst (.im 0x00#8) :=
  ⟨fun _ _ => rfl, fun _ _ => rfl⟩

/-- Settles O35: each of the twelve forms of LD, and both of CLR, has the load shape. -/
theorem loadAndClearResults : Obligations.LoadAndClearResults := by
  have loads {i : Instr} {dst : Loc} {src : Src} (shape : HasLoadShape i dst src) : Loads i dst src := shape.loads
  exact ⟨fun _ _ => loads fun _ => rfl, fun _ _ => loads fun _ => rfl, fun _ _ => loads fun _ => rfl,
    fun _ _ => loads fun _ => rfl, fun _ _ => loads fun _ => rfl, fun _ _ => loads fun _ => rfl,
    fun _ _ => loads fun _ => rfl, fun _ _ => loads fun _ => rfl, fun _ _ => loads fun _ => rfl,
    fun _ _ => loads fun _ => rfl, fun _ _ _ => loads fun _ => rfl, fun _ _ _ => loads fun _ => rfl,
    clr_hasLoadShape.imp HasLoadShape.loads⟩

/-! ### LDC and LDE with a register destination -/

/-- The instruction's meaning is the memory load shape on its own operands and length. -/
def HasMemLoadShape (space : Space) (i : Instr) (dst : WReg) (m : MemAddr) : Prop :=
  ∀ s, exec i s = toOutcome (memLoad space dst m i.length s)

theorem HasMemLoadShape.loadsProgram {i : Instr} {dst : WReg} {m : MemAddr} (shape : HasMemLoadShape .program i dst m) :
    LoadsProgram i dst m := by
  intro s ea s1 operand
  refine ⟨fun nonneg inside accepted => ?_, fun outside => ?_⟩
  · rw [shape, memLoad_of_read operand (memRead_program ⟨nonneg, inside⟩) accepted, toOutcome_ok]
  · rw [shape, memLoad_of_fault operand (memRead_program_outside outside), toOutcome_error]

theorem HasMemLoadShape.loadsData {i : Instr} {dst : WReg} {m : MemAddr} (shape : HasMemLoadShape .data i dst m) :
    LoadsData i dst m := by
  intro s ea s1 operand
  refine ⟨fun v nonneg fitted accepted => ?_, fun outside => ?_⟩
  · rw [shape, memLoad_of_read operand (memRead_data nonneg fitted) accepted, toOutcome_ok]
  · rw [shape, memLoad_of_fault operand (memRead_data_outside outside), toOutcome_error]

/-- Settles O36: the four forms of LDC and of LDE have the memory load shape of their space. -/
theorem memoryLoadResults : Obligations.MemoryLoadResults := by
  have program {i : Instr} {n : WReg} {m : MemAddr} (shape : HasMemLoadShape .program i n m) : LoadsProgram i n m :=
    shape.loadsProgram
  have data {i : Instr} {n : WReg} {m : MemAddr} (shape : HasMemLoadShape .data i n m) : LoadsData i n m :=
    shape.loadsData
  exact ⟨fun _ _ => program fun _ => rfl, fun _ _ _ => program fun _ => rfl, fun _ _ _ => program fun _ => rfl,
    fun _ _ => program fun _ => rfl, fun _ _ => data fun _ => rfl, fun _ _ _ => data fun _ => rfl,
    fun _ _ _ => data fun _ => rfl, fun _ _ => data fun _ => rfl⟩

/-! ### LDC and LDE with a memory destination -/

/-- The instruction's meaning is the memory store shape on its own operands and length. -/
def HasMemStoreShape (space : Space) (i : Instr) (m : MemAddr) (src : WReg) : Prop :=
  ∀ s, exec i s = toOutcome (memStore space m src i.length s)

theorem HasMemStoreShape.storesProgram {i : Instr} {m : MemAddr} {src : WReg} (shape : HasMemStoreShape .program i m src) :
    StoresProgram i m src := by
  intro s ea s1 v s2 operand value
  have same : SameButDraws s s2 := (MemAddr.ea_sameButDraws operand).trans (readReg_sameButDraws value)
  obtain ⟨-, -, -, -, -, -, progMem, -, cfg, -⟩ := same.fields
  rw [shape, memStore_of_operands operand value]
  refine ⟨fun writable nonneg inside => ⟨?_, ?_, fun b hb => ?_⟩, fun writable outside => ?_, fun masked => ?_⟩
  · simp [memWrite, cfg, writable, nonneg, inside, progMem]
  · rw [read_write, if_pos rfl]
  · rw [read_write, if_neg hb]
  · rw [memWrite_program_outside (by rw [cfg, writable]) (by rw [cfg]; exact outside)]; rfl
  · simp [memWrite, cfg, masked]

theorem HasMemStoreShape.storesData {i : Instr} {m : MemAddr} {src : WReg} (shape : HasMemStoreShape .data i m src) :
    StoresData i m src := by
  intro s ea s1 v s2 operand value
  have same : SameButDraws s s2 := (MemAddr.ea_sameButDraws operand).trans (readReg_sameButDraws value)
  obtain ⟨-, -, -, -, -, -, -, dataMem, -, -⟩ := same.fields
  rw [shape, memStore_of_operands operand value]
  refine ⟨fun nonneg fitted => ⟨?_, ?_, fun b hb => ?_⟩, fun outside => ?_⟩
  · simp [memWrite, dataMem, nonneg, fitted]
  · rw [find_store, if_pos rfl]
  · rw [find_store, if_neg hb]
  · rw [memWrite_data_outside (by rw [dataMem]; exact outside)]; rfl

/-- Settles O37: the four forms of LDC and of LDE have the memory store shape of their space. -/
theorem memoryStoreResults : Obligations.MemoryStoreResults := by
  have program {i : Instr} {m : MemAddr} {n : WReg} (shape : HasMemStoreShape .program i m n) : StoresProgram i m n :=
    shape.storesProgram
  have data {i : Instr} {m : MemAddr} {n : WReg} (shape : HasMemStoreShape .data i m n) : StoresData i m n :=
    shape.storesData
  exact ⟨fun _ _ => program fun _ => rfl, fun _ _ _ => program fun _ => rfl, fun _ _ _ => program fun _ => rfl,
    fun _ _ => program fun _ => rfl, fun _ _ => data fun _ => rfl, fun _ _ _ => data fun _ => rfl,
    fun _ _ _ => data fun _ => rfl, fun _ _ => data fun _ => rfl⟩

/-! ### LDCD, LDED, LDCI, LDEI -/

/-- A working register is in the pair of half its number (30_encoding.md R76). -/
theorem pairOfField_eq_iff : ∀ (n : WReg) (p : PairNo), pairOfField n = p ↔ n.toNat / 2 = p.toNat := by decide

/-- The byte a memory has at an address is what a read there gives. -/
theorem memRead_of_byteAt {space : Space} {a : Nat} {s : State} {v : Byte} (byte : s.byteAt space a = some v) :
    memRead space a s = .ok v := by
  cases space with
  | program =>
    simp only [State.byteAt, State.programByte] at byte
    split_ifs at byte with inside
    rw [memRead_program (by omega), Int.toNat_natCast, Option.some.inj byte]
  | data => exact memRead_data (Int.natCast_nonneg a) byte

theorem memRead_of_byteAt_none {space : Space} {a : Nat} {s : State} (byte : s.byteAt space a = none) :
    memRead space a s = .error (.addressOutOfRange space a) := by
  cases space with
  | program =>
    simp only [State.byteAt, State.programByte] at byte
    split_ifs at byte with inside
    exact memRead_program_outside (.inr (by omega))
  | data => exact memRead_data_outside (.inr byte)

@[simp] theorem wpair_put (s : State) (a : RegAddr) (v : Byte) (p : PairNo) : (s.put a v).wpair p = s.wpair p :=
  wreg_put s a v _

theorem writePair_of_accepted {a : RegAddr} {s : State} (high : s.refuses a = false) (low : s.refuses (a + 1) = false)
    (w : Word) : writePair a w s = .ok ((s.put a (hiByte w)).put (a + 1) (loByte w)) := by
  rw [writePair, writeReg_of_accepted high, ok_bind, writeReg_of_accepted (by rwa [refuses_put])]

/-- The converse of `memLoadStep_ok`: the pair was read, so it is not refused when it is written. -/
theorem memLoadStep_of_read {space : Space} {delta : Word} {dst : WReg} {p : PairNo} {s s1 : State} {w : Word} {v : Byte}
    (apart : pairOfField dst ≠ p) (pair : readPair (s.wpair p) s = .ok (w, s1)) (read : memRead space w.toNat s = .ok v)
    (accepted : s.refuses (s.wreg dst) = false) :
    memLoadStep space delta dst p s = .ok ((((s1.put (s.wreg dst) v).put (s.wpair p) (hiByte (w + delta))).put
      (s.wpair p + 1) (loByte (w + delta))).advance 2) := by
  have same : SameButDraws s s1 := readPair_sameButDraws pair
  obtain ⟨high, low, -, -⟩ := readPair_eq_ok.1 pair
  have wpair_eq : s1.wpair p = s.wpair p := same.wreg _
  have load : writeReg (s1.wreg dst) v s1 = .ok (s1.put (s.wreg dst) v) := by
    rw [same.wreg, writeReg_of_accepted (by rwa [same.refuses])]
  have step := writePair_of_accepted (a := s.wpair p) (s := s1.put (s.wreg dst) v) (by rwa [refuses_put, same.refuses])
    (by rwa [refuses_put, same.refuses]) (w + delta)
  simp only [memLoadStep, if_neg apart, pair, ok_bind, same.memRead, read, load, wpair_put, wpair_eq, step, pure_eq_ok]

/-- The instruction's meaning is the stepping load of its space and change of the pair. -/
def HasStepShape (space : Space) (delta : Word) (i : Instr) (dst : WReg) (p : PairNo) : Prop :=
  i.length = 2 ∧ ∀ s, exec i s = toOutcome (memLoadStep space delta dst p s)

theorem HasStepShape.loadsAndSteps {space : Space} {change : Int} {i : Instr} {dst : WReg} {p : PairNo}
    (shape : HasStepShape space (BitVec.ofInt 16 change) i dst p) : LoadsAndSteps space change i dst p := by
  intro s
  obtain ⟨length, meaning⟩ := shape
  rw [meaning, length]
  refine ⟨fun inside => ?_, fun w s1 apart pair => ⟨fun v byte accepted => ?_, fun byte => ?_⟩⟩
  · rw [memLoadStep, if_pos ((pairOfField_eq_iff dst p).2 inside), toOutcome_error]
  · have stepped : w + BitVec.ofInt 16 change = BitVec.ofInt 16 (w.toNat + change) := by
      rw [BitVec.ofInt_add, BitVec.ofInt_natCast, BitVec.ofNat_toNat, BitVec.setWidth_eq]
    rw [memLoadStep_of_read (mt (pairOfField_eq_iff dst p).1 apart) pair (memRead_of_byteAt byte) accepted, stepped,
      toOutcome_ok]
  · have faulted := memRead_of_byteAt_none byte
    rw [memLoadStep, if_neg (mt (pairOfField_eq_iff dst p).1 apart)]
    simp only [pair, ok_bind, (readPair_sameButDraws pair).memRead, faulted, error_bind, toOutcome_error]

/-- Settles O38: the four instructions are the stepping loads by -1 and by 1, the change as a 16-bit number. -/
theorem steppingLoadResults : Obligations.SteppingLoadResults := by
  refine ⟨fun n p => ?ldcd, fun n p => ?lded, fun n p => ?ldci, fun n p => ?ldei⟩
  all_goals exact HasStepShape.loadsAndSteps ⟨rfl, fun _ => rfl⟩

end Sys2Proof.Machine
end

section
/-! PROOF. The stack: pushes and pops of plain bytes as equations, and with them PUSH and POP, interrupt entry, CALL, RET and
IRET (10_state.md R32, 40_load.md R120 and R121, 43_program_control.md R171 to R176, 60_exceptions.md R228 to R230). -/

namespace Sys2Proof.Machine

/-! ### Bytes in plain storage -/

/-- A byte stored in the storage of the register file: what a write to a plain address does. -/
def State.store (s : State) (a : RegAddr) (v : Byte) : State := { s with regs := s.regs.set a.toNat v a.isLt }

theorem put_of_isPlain {s : State} {a : RegAddr} (plain : s.isPlain a) (v : Byte) : s.put a v = s.store a v := by
  obtain ⟨not_flags, not_sp, not_sym, -⟩ := plain
  simp only [State.put, State.store, not_flags, not_sp, not_sym, if_false]

theorem get_store_self {s : State} {a : RegAddr} (plain : s.isPlain a) (v : Byte) : (s.store a v).get a = v := by
  rw [← put_of_isPlain plain, get_put_self plain.1]

theorem get_store_of_ne {s : State} {a b : RegAddr} (h : b ≠ a) (v : Byte) : (s.store a v).get b = s.get b := by
  have apart : a.toNat ≠ b.toNat := fun e => h (BitVec.eq_of_toNat_eq e.symm)
  simp only [State.get, State.store, Vector.getElem_set_ne a.isLt b.isLt apart]

/-- A plain byte depends on the storage alone. -/
theorem get_of_isPlain {s : State} {a : RegAddr} (plain : s.isPlain a) : s.get a = s.regs[a.toNat]'a.isLt := by
  obtain ⟨not_flags, not_sp, not_sym, -⟩ := plain
  simp only [State.get, not_flags, not_sp, not_sym, if_false]

/-- SP is read at D9H alone. -/
theorem get_setSp (s : State) {a : RegAddr} (h : a ≠ Config.spAddr) (v : Byte) :
    State.get { s with sp := v } a = s.get a := by
  simp only [State.get, h, if_false]

theorem get_setPc (s : State) (a : RegAddr) (pc : Word) : State.get { s with pc := pc } a = s.get a := rfl

/-- Off FLAGS, SP and SYM a read depends on the storage alone. -/
theorem get_eq_of_regs {s t : State} (cfg : t.cfg = s.cfg) (regs : t.regs = s.regs) {a : RegAddr}
    (h : a ∉ [Config.flagsAddr, Config.spAddr, s.cfg.symAddr]) : t.get a = s.get a := by
  simp only [List.mem_cons, List.not_mem_nil, or_false, not_or] at h
  obtain ⟨not_flags, not_sp, not_sym⟩ := h
  simp only [State.get, not_flags, not_sp, not_sym, cfg, regs, if_false]

/-! ### Pushes and pops of plain bytes -/

/-- A push where the parameters are those of s, onto an address that is plain there. -/
theorem push_of_isPlain {s t : State} {a : RegAddr} (plain : s.isPlain a) (cfg : t.cfg = s.cfg) (sp : t.sp - 1 = a)
    (v : Byte) : push v t = .ok (State.store { t with sp := a } a v) := by
  subst sp
  have plain' : State.isPlain { t with sp := t.sp - 1 } (t.sp - 1) := (isPlain_congr cfg _).2 plain
  rw [← put_of_isPlain plain']
  obtain ⟨-, -, -, accepted⟩ := plain'
  exact push_eq_ok.2 ⟨accepted, rfl⟩

theorem pop_of_isPlain {s : State} (plain : s.isPlain s.sp) : pop s = .ok (s.get s.sp, { s with sp := s.sp + 1 }) := by
  obtain ⟨not_flags, -, -, accepted⟩ := plain
  exact pop_eq_ok.2 ⟨accepted, rfl, by rw [afterRead_of_ne not_flags]⟩

/-- A pop where storage and parameters are those of s, of a byte that is plain there. -/
theorem pop_of_same_storage {s : State} (t : State) {a : RegAddr} (plain : s.isPlain a) (cfg : t.cfg = s.cfg)
    (regs : t.regs = s.regs) (sp : t.sp = a) : pop t = .ok (s.get a, { t with sp := a + 1 }) := by
  subst sp
  have plain' : t.isPlain t.sp := (isPlain_congr cfg _).2 plain
  rw [pop_of_isPlain plain', get_of_isPlain plain', get_of_isPlain plain]
  simp only [regs]

/-- The state after a word is pushed onto two plain bytes, the low byte first. -/
def State.pushedWord (s : State) (w : Word) : State :=
  ({ s with sp := s.sp - 2 }.store (s.sp - 1) (loByte w)).store (s.sp - 2) (hiByte w)

theorem pushWord_of_isPlain {s : State} (plain1 : s.isPlain (s.sp - 1)) (plain2 : s.isPlain (s.sp - 2)) (w : Word) :
    pushWord w s = .ok (s.pushedWord w) := by
  have below : s.sp - 1 - 1 = s.sp - 2 := by bv_omega
  rw [pushWord, push_of_isPlain plain1 rfl rfl, ok_bind, push_of_isPlain plain2]
  · rfl
  · rfl
  · exact below

/-- The three bytes below SP are three places. -/
theorem stack_bytes_apart (sp : Byte) : sp - 1 ≠ sp - 2 ∧ sp - 1 ≠ sp - 3 ∧ sp - 2 ≠ sp - 3 := by
  refine ⟨?_, ?_, ?_⟩ <;> bv_omega

theorem get_pushedWord_low {s : State} (plain1 : s.isPlain (s.sp - 1)) (w : Word) :
    (s.pushedWord w).get (s.sp - 1) = loByte w := by
  obtain ⟨apart12, -, -⟩ := stack_bytes_apart s.sp
  rw [State.pushedWord, get_store_of_ne apart12, get_store_self]
  exact plain1

theorem get_pushedWord_high {s : State} (plain2 : s.isPlain (s.sp - 2)) (w : Word) :
    (s.pushedWord w).get (s.sp - 2) = hiByte w := by
  rw [State.pushedWord, get_store_self]
  exact plain2

theorem get_pushedWord_of_ne {s : State} {a : RegAddr} (not_sp : a ≠ Config.spAddr) (not_low : a ≠ s.sp - 1)
    (not_high : a ≠ s.sp - 2) (w : Word) : (s.pushedWord w).get a = s.get a := by
  rw [State.pushedWord, get_store_of_ne not_high, get_store_of_ne not_low, get_setSp s not_sp]

/-- Settles O19: the pop reads the plain byte the push stored and moves SP back. -/
theorem pushThenPop : Obligations.PushThenPop := by
  intro s v plain
  have restored : s.sp - 1 + 1 = s.sp := by bv_omega
  have top : State.get (State.store { s with sp := s.sp - 1 } (s.sp - 1) v) (s.sp - 1) = v :=
    get_store_self (s := { s with sp := s.sp - 1 }) plain v
  refine ⟨_, s.store (s.sp - 1) v, push_of_isPlain plain rfl rfl v, rfl, top, ?_, rfl, fun a _ h => get_store_of_ne h v⟩
  refine (pop_of_isPlain (s := State.store { s with sp := s.sp - 1 } (s.sp - 1) v) plain).trans ?_
  simp only [State.store] at top ⊢
  rw [top, restored]

/-! ### PUSH and POP -/

theorem Loc.pointer_eq_some {l : Loc} {a : RegAddr} : l.pointer = some a ↔ l = .ir a := by
  cases l <;> simp [Loc.pointer]

theorem pushFrom_of_sp {src : Loc} {s s1 : State} {a : RegAddr} (resolved : src.resolve s = .ok (a, s1))
    (h : a = Config.spAddr ∨ src = .ir Config.spAddr) : pushFrom src s = .error (.unspecifiedOrder .pushOfSp) := by
  rw [← Loc.pointer_eq_some] at h
  simp only [pushFrom, resolved, ok_bind, if_pos h]

theorem popTo_of_sp {dst : Loc} {s s1 : State} {d : RegAddr} (resolved : dst.resolve s = .ok (d, s1))
    (h : d = Config.spAddr ∨ dst = .ir Config.spAddr) : popTo dst s = .error (.unspecifiedOrder .popOfSp) := by
  rw [← Loc.pointer_eq_some] at h
  simp only [popTo, resolved, ok_bind, if_pos h]

/-- The converse of `pushFrom_ok`. -/
theorem pushFrom_of_operand {src : Loc} {s s1 s2 : State} {a : RegAddr} {v : Byte}
    (resolved : src.resolve s = .ok (a, s1)) (ha : a ≠ Config.spAddr) (hsrc : src ≠ .ir Config.spAddr)
    (read : readReg a s1 = .ok (v, s2)) (accepted : s.refuses (s.sp - 1) = false) :
    pushFrom src s = .ok ((State.put { s2 with sp := s.sp - 1 } (s.sp - 1) v).advance 2) := by
  have reads : SameButDraws s s2 := (Loc.resolve_sameButDraws resolved).trans (readReg_sameButDraws read)
  obtain ⟨-, -, -, sp, -⟩ := reads.fields
  have pushed : push v s2 = .ok (State.put { s2 with sp := s.sp - 1 } (s.sp - 1) v) := by
    rw [push_eq_ok, sp, reads.refuses]; exact ⟨accepted, rfl⟩
  have named : ¬ (a = Config.spAddr ∨ src.pointer = some Config.spAddr) := by
    rw [Loc.pointer_eq_some, not_or]; exact ⟨ha, hsrc⟩
  simp only [pushFrom, resolved, ok_bind, if_neg named, read, pushed, pure_eq_ok]

/-- The converse of `popTo_ok`. -/
theorem popTo_of_operand {dst : Loc} {s s1 s2 : State} {d : RegAddr} {v : Byte} (resolved : dst.resolve s = .ok (d, s1))
    (hd : d ≠ Config.spAddr) (hdst : dst ≠ .ir Config.spAddr) (read : readReg s.sp s1 = .ok (v, s2))
    (accepted : s.refuses d = false) :
    popTo dst s = .ok ((State.put { s2 with sp := s.sp + 1 } d v).advance 2) := by
  have resolves : SameButDraws s s1 := Loc.resolve_sameButDraws resolved
  have reads : SameButDraws s s2 := resolves.trans (readReg_sameButDraws read)
  obtain ⟨-, -, -, sp, -⟩ := resolves.fields
  obtain ⟨-, -, -, sp2, -⟩ := reads.fields
  have popped : pop s1 = .ok (v, { s2 with sp := s.sp + 1 }) := by
    simp only [pop, sp, read, ok_bind, sp2, pure_eq_ok]
  have written : writeReg d v { s2 with sp := s.sp + 1 } = .ok (State.put { s2 with sp := s.sp + 1 } d v) :=
    writeReg_of_accepted (s := { s2 with sp := s.sp + 1 }) ((reads.refuses d).trans accepted) v
  have named : ¬ (d = Config.spAddr ∨ dst.pointer = some Config.spAddr) := by
    rw [Loc.pointer_eq_some, not_or]; exact ⟨hd, hdst⟩
  simp only [popTo, resolved, ok_bind, if_neg named, popped, written, pure_eq_ok]

theorem push_hasShape : TwoForms .pushR .pushIr fun i src => ∀ s, exec i s = toOutcome (pushFrom src s) ∧ i.length = 2 :=
  ⟨fun _ _ => ⟨rfl, rfl⟩, fun _ _ => ⟨rfl, rfl⟩⟩

theorem pop_hasShape : TwoForms .popR .popIr fun i dst => ∀ s, exec i s = toOutcome (popTo dst s) ∧ i.length = 2 :=
  ⟨fun _ _ => ⟨rfl, rfl⟩, fun _ _ => ⟨rfl, rfl⟩⟩

/-- Settles O39: both forms are the push shape on their source. -/
theorem pushResult : Obligations.PushResult := by
  refine push_hasShape.imp fun {i src} shape s a s1 resolved => ?_
  obtain ⟨meaning, length⟩ := shape s
  rw [meaning, length]
  refine ⟨fun h => ?_, fun v s2 ha hsrc read accepted => ?_⟩
  · rw [pushFrom_of_sp resolved h, toOutcome_error]
  · rw [pushFrom_of_operand resolved ha hsrc read accepted, toOutcome_ok]

/-- Settles O40: both forms are the pop shape on their destination. -/
theorem popResult : Obligations.PopResult := by
  refine pop_hasShape.imp fun {i dst} shape s d s1 resolved => ?_
  obtain ⟨meaning, length⟩ := shape s
  rw [meaning, length]
  refine ⟨fun h => ?_, fun v s2 hd hdst read accepted => ?_⟩
  · rw [popTo_of_sp resolved h, toOutcome_error]
  · rw [popTo_of_operand resolved hd hdst read accepted, toOutcome_ok]

/-! ### RET and IRET -/

theorem returnFromCall_of_pops {s s1 s2 : State} {hi lo : Byte} (high : pop s = .ok (hi, s1))
    (low : pop s1 = .ok (lo, s2)) : returnFromCall s = .ok { s2 with pc := ofBytes hi lo } := by
  simp only [returnFromCall, popWord, high, low, ok_bind, pure_eq_ok]

theorem interruptReturn_of_pops {s s1 s2 s3 : State} {f hi lo : Byte} (flags : pop s = .ok (f, s1))
    (high : pop { s1 with flags := Flags.ofByte f } = .ok (hi, s2)) (low : pop s2 = .ok (lo, s3)) :
    interruptReturn s = .ok { s3 with sym := s3.sym ||| 0x04#8, pc := ofBytes hi lo } := by
  simp only [interruptReturn, popWord, flags, high, low, ok_bind, pure_eq_ok]
  rfl

/-- RET from two plain bytes. -/
theorem exec_ret_of_isPlain {s : State} (plain0 : s.isPlain s.sp) (plain1 : s.isPlain (s.sp + 1)) :
    exec .ret s = .next { s with sp := s.sp + 2, pc := ofBytes (s.get s.sp) (s.get (s.sp + 1)) } := by
  have above : s.sp + 1 + 1 = s.sp + 2 := by bv_omega
  have low : pop { s with sp := s.sp + 1 } = .ok (s.get (s.sp + 1), { s with sp := s.sp + 2 }) := by
    rw [pop_of_same_storage { s with sp := s.sp + 1 } plain1 rfl rfl rfl, above]
  show toOutcome (returnFromCall s) = _
  rw [returnFromCall_of_pops (pop_of_isPlain plain0) low, toOutcome_ok]

/-- IRET from three plain bytes. -/
theorem exec_iret_of_isPlain {s : State} (plain0 : s.isPlain s.sp) (plain1 : s.isPlain (s.sp + 1))
    (plain2 : s.isPlain (s.sp + 2)) :
    exec .iret s = .next { s with
      flags := Flags.ofByte (s.get s.sp), sp := s.sp + 3, pc := ofBytes (s.get (s.sp + 1)) (s.get (s.sp + 2)),
      sym := s.sym ||| 0x04#8 } := by
  have above1 : s.sp + 1 + 1 = s.sp + 2 := by bv_omega
  have above2 : s.sp + 2 + 1 = s.sp + 3 := by bv_omega
  have high (f : Flags) : pop { s with flags := f, sp := s.sp + 1 } =
      .ok (s.get (s.sp + 1), { s with flags := f, sp := s.sp + 2 }) := by
    rw [pop_of_same_storage { s with flags := f, sp := s.sp + 1 } plain1 rfl rfl rfl, above1]
  have low (f : Flags) : pop { s with flags := f, sp := s.sp + 2 } =
      .ok (s.get (s.sp + 2), { s with flags := f, sp := s.sp + 3 }) := by
    rw [pop_of_same_storage { s with flags := f, sp := s.sp + 2 } plain2 rfl rfl rfl, above2]
  show toOutcome (interruptReturn s) = _
  rw [interruptReturn_of_pops (pop_of_isPlain plain0) (high _) (low _), toOutcome_ok]

/-- Settles O45: two pops, and where both bytes are plain the pops are equations. -/
theorem returnResult : Obligations.ReturnResult := by
  refine ⟨fun s s1 s2 hi lo high low => ?_, fun s plain0 plain1 => exec_ret_of_isPlain plain0 plain1⟩
  show toOutcome (returnFromCall s) = _
  rw [returnFromCall_of_pops high low, toOutcome_ok]

/-- Settles O46: three pops, and where the bytes are plain the pops are equations. -/
theorem interruptReturnResult : Obligations.InterruptReturnResult := by
  refine ⟨fun s s1 s2 s3 f hi lo flags high low => ?_, fun s plain0 plain1 plain2 =>
    exec_iret_of_isPlain plain0 plain1 plain2⟩
  show toOutcome (interruptReturn s) = _
  rw [interruptReturn_of_pops flags high low, toOutcome_ok]

/-! ### Interrupt entry -/

/-- The state of an interrupt entry before it goes to the vector: PCL, PCH and FLAGS on the stack, SYM.2 cleared
(60_exceptions.md R228). -/
def State.entered (s : State) : State :=
  (({ s with sp := s.sp - 3, sym := s.sym &&& 0xFB#8, draws := s.draws + 1 }.store (s.sp - 1) (loByte s.pc)).store
    (s.sp - 2) (hiByte s.pc)).store (s.sp - 3) (s.get Config.flagsAddr)

/-- The two bytes of the vector depend on the parameters and on program memory alone. -/
theorem readVector_congr {s t : State} (cfg : t.cfg = s.cfg) (progMem : t.progMem = s.progMem) :
    readVector t = readVector s := by
  simp only [readVector, memRead, cfg, progMem]

theorem interruptEntry_of_isPlain {s : State} (plain1 : s.isPlain (s.sp - 1)) (plain2 : s.isPlain (s.sp - 2))
    (plain3 : s.isPlain (s.sp - 3)) :
    interruptEntry s = (do let target ← readVector s; return { s.entered with pc := target }) := by
  have below : s.sp - 2 - 1 = s.sp - 3 := by bv_omega
  have flags_read : readReg Config.flagsAddr (s.pushedWord s.pc) =
      .ok (s.get Config.flagsAddr, { s.pushedWord s.pc with draws := s.draws + 1 }) :=
    readReg_eq_ok.2 ⟨refuses_flags _, rfl, rfl⟩
  rw [interruptEntry, pushWord_of_isPlain plain1 plain2, ok_bind, flags_read, ok_bind]
  dsimp only
  rw [push_of_isPlain plain3 ?cfg ?sp, ok_bind, readVector_congr (s := s) rfl rfl]
  case cfg => rfl
  case sp => exact below
  rfl

/-- Outside the stack bytes an entry leaves what does not depend on FLAGS, SP or SYM. -/
theorem get_entered_of_not_mem {s : State} {a : RegAddr}
    (h : a ∉ [Config.flagsAddr, Config.spAddr, s.cfg.symAddr, s.sp - 1, s.sp - 2, s.sp - 3]) :
    s.entered.get a = s.get a := by
  simp only [List.mem_cons, List.not_mem_nil, or_false, not_or] at h
  obtain ⟨not_flags, not_sp, not_sym, not_low, not_high, not_saved⟩ := h
  rw [State.entered, get_store_of_ne not_saved, get_store_of_ne not_high, get_store_of_ne not_low]
  have unnamed : a ∉ [Config.flagsAddr, Config.spAddr, s.cfg.symAddr] := by simp [not_flags, not_sp, not_sym]
  refine get_eq_of_regs ?_ ?_ unnamed <;> rfl

theorem get_entered_low {s : State} (plain1 : s.isPlain (s.sp - 1)) : s.entered.get (s.sp - 1) = loByte s.pc := by
  obtain ⟨apart12, apart13, -⟩ := stack_bytes_apart s.sp
  rw [State.entered, get_store_of_ne apart13, get_store_of_ne apart12, get_store_self]
  exact plain1

theorem get_entered_high {s : State} (plain2 : s.isPlain (s.sp - 2)) : s.entered.get (s.sp - 2) = hiByte s.pc := by
  obtain ⟨-, -, apart23⟩ := stack_bytes_apart s.sp
  rw [State.entered, get_store_of_ne apart23, get_store_self]
  exact plain2

theorem get_entered_flags {s : State} (plain3 : s.isPlain (s.sp - 3)) :
    s.entered.get (s.sp - 3) = s.get Config.flagsAddr := by
  rw [State.entered, get_store_self]
  exact plain3

/-- A vector inside program memory is read, high byte first (60_exceptions.md R229). -/
theorem readVector_of_programByte {s : State} {h l : Byte} (high : s.programByte s.cfg.irqVector = some h)
    (low : s.programByte (s.cfg.irqVector + 1) = some l) : readVector s = .ok (ofBytes h l) := by
  have high : memRead .program s.cfg.irqVector s = .ok h := memRead_of_byteAt (space := .program) high
  have low : memRead .program (s.cfg.irqVector + 1) s = .ok l := memRead_of_byteAt (space := .program) low
  rw [readVector, high, ok_bind, low, ok_bind, pure_eq_ok]

/-- Settles O10: on plain stack bytes the entry is `State.entered`, at the vector. -/
theorem interruptEntryEffect : Obligations.InterruptEntryEffect := by
  intro s h l plain1 plain2 plain3 high low
  refine ⟨{ s.entered with pc := ofBytes h l }, ?entry, rfl, rfl, rfl, ?low, ?high, ?saved, rfl, rfl, rfl, rfl, rfl, rfl,
    fun a outside => ?frame⟩
  case entry =>
    rw [interruptEntry_of_isPlain plain1 plain2 plain3, readVector_of_programByte high low, ok_bind, pure_eq_ok]
  case low => rw [get_setPc, get_entered_low plain1]
  case high => rw [get_setPc, get_entered_high plain2]
  case saved => rw [get_setPc, get_entered_flags plain3, ofByte_get_flags]
  case frame => rw [get_setPc, get_entered_of_not_mem outside]

/-- Setting SYM.2 undoes clearing it. -/
theorem set_clear_sym2 (sym : Byte) : sym &&& 0xFB#8 ||| 0x04#8 = sym ||| 0x04#8 := by
  revert sym; decide

/-- IRET pops the three bytes an entry pushed, FLAGS from the lowest. -/
theorem exec_iret_entered {s : State} (plain1 : s.isPlain (s.sp - 1)) (plain2 : s.isPlain (s.sp - 2))
    (plain3 : s.isPlain (s.sp - 3)) (target : Word) :
    exec .iret { s.entered with pc := target } = .next { s.entered with
      flags := s.flags, sp := s.sp, pc := s.pc, sym := s.sym ||| 0x04#8 } := by
  have up1 : s.sp - 3 + 1 = s.sp - 2 := by bv_omega
  have up2 : s.sp - 3 + 2 = s.sp - 1 := by bv_omega
  have up3 : s.sp - 3 + 3 = s.sp := by bv_omega
  refine (exec_iret_of_isPlain (s := { s.entered with pc := target }) plain3 (up1.symm ▸ plain2)
    (up2.symm ▸ plain1)).trans ?_
  show Host.Outcome.next { s.entered with
    flags := Flags.ofByte (s.entered.get (s.sp - 3)), sp := s.sp - 3 + 3,
    pc := ofBytes (s.entered.get (s.sp - 3 + 1)) (s.entered.get (s.sp - 3 + 2)),
    sym := s.sym &&& 0xFB#8 ||| 0x04#8 } = _
  rw [up1, up2, up3, get_entered_flags plain3, get_entered_high plain2, get_entered_low plain1, ofByte_get_flags,
    ofBytes_hi_lo, set_clear_sym2]

/-- What a register reads once an interrupt has returned: the three stack bytes keep what was pushed. -/
theorem get_after_iret {s : State} {a : RegAddr}
    (outside : a ∉ [Config.flagsAddr, s.cfg.symAddr, s.sp - 1, s.sp - 2, s.sp - 3]) (pc : Word) (sym : Byte) :
    State.get { s.entered with flags := s.flags, sp := s.sp, pc := pc, sym := sym } a = s.get a := by
  by_cases is_sp : a = Config.spAddr
  · subst is_sp; rfl
  · simp only [List.mem_cons, List.not_mem_nil, or_false, not_or] at outside
    obtain ⟨not_flags, not_sym, not_low, not_high, not_saved⟩ := outside
    have unnamed : a ∉ [Config.flagsAddr, Config.spAddr, s.entered.cfg.symAddr] := by
      simp only [List.mem_cons, List.not_mem_nil, or_false, not_or]
      exact ⟨not_flags, is_sp, not_sym⟩
    have kept : s.entered.get a = s.get a := get_entered_of_not_mem (by
      simp only [List.mem_cons, List.not_mem_nil, or_false, not_or]
      exact ⟨not_flags, is_sp, not_sym, not_low, not_high, not_saved⟩)
    rw [← kept]
    refine get_eq_of_regs ?_ ?_ unnamed <;> rfl

/-- Settles O11: the entry is `State.entered` at some vector, and IRET there goes back. -/
theorem entryThenReturnRestores : Obligations.EntryThenReturnRestores := by
  intro s t plain1 plain2 plain3 entry
  rw [interruptEntry_of_isPlain plain1 plain2 plain3] at entry
  obtain ⟨target, -, at_target⟩ := bind_eq_ok.1 entry
  obtain rfl : { s.entered with pc := target } = t := Except.ok.inj at_target
  exact ⟨_, exec_iret_entered plain1 plain2 plain3 target, rfl, rfl, rfl, rfl, rfl, rfl, rfl, rfl,
    fun a outside => get_after_iret outside _ _⟩

/-! ### CALL and the jumps -/

theorem callTo_of_pushes {target : Word} {n : Nat} {s s1 s2 : State} (low : push (loByte (s.next n)) s = .ok s1)
    (high : push (hiByte (s.next n)) s1 = .ok s2) : callTo target n s = .ok { s2 with pc := target } := by
  simp only [callTo, pushWord, low, high, ok_bind, pure_eq_ok]

theorem getLsbD_zero_of_even {a : RegAddr} (even : a.toNat % 2 = 0) : a.getLsbD 0 = false := by
  rw [getLsbD_zero_eq_decide, even]; rfl

theorem getLsbD_zero_of_odd {a : RegAddr} (odd : a.toNat % 2 = 1) : a.getLsbD 0 = true := by
  rw [getLsbD_zero_eq_decide, odd]; rfl

theorem pairTarget_of_even {a : RegAddr} (even : a.toNat % 2 = 0) (s : State) : pairTarget a s = readPair a s := by
  rw [pairTarget, getLsbD_zero_of_even even, if_neg Bool.false_ne_true]

theorem pairTarget_of_odd {a : RegAddr} (odd : a.toNat % 2 = 1) (s : State) : pairTarget a s = .error (.oddPair a) := by
  rw [pairTarget, getLsbD_zero_of_odd odd, if_pos rfl]

theorem callPairOverlaps_iff {a sp : RegAddr} :
    callPairOverlaps a sp = true ↔ a = 0xD8#8 ∨ ∃ b ∈ [a, a + 1], b ∈ [sp - 1, sp - 2] := by
  simp only [callPairOverlaps, Bool.or_eq_true, beq_iff_eq, List.mem_cons, List.not_mem_nil, or_false, exists_eq_or_imp,
    exists_eq_left]
  tauto

theorem callPair_of_apart {a : RegAddr} {target : Word} {s s1 : State} (even : a.toNat % 2 = 0)
    (pair : readPair a s = .ok (target, s1)) (apart : callPairOverlaps a s.sp = false) :
    callPair a s = callTo target 2 s1 := by
  obtain ⟨-, -, -, sp, -⟩ := (readPair_sameButDraws pair).fields
  simp only [callPair, pairTarget_of_even even, pair, ok_bind, sp, apart, Bool.false_eq_true, if_false]

/-- CALL DA onto two plain bytes. -/
theorem callTo_of_isPlain {s : State} (plain1 : s.isPlain (s.sp - 1)) (plain2 : s.isPlain (s.sp - 2)) (target : Word)
    (n : Nat) :
    callTo target n s = .ok { s.pushedWord (s.next n) with pc := target } := by
  rw [callTo, pushWord_of_isPlain plain1 plain2, ok_bind, pure_eq_ok]

/-- Settles O41. -/
theorem callResult : Obligations.CallResult := by
  refine ⟨fun s s1 s2 target low high => ?_, fun s s1 s2 s3 a target even not_D8 apart pair low high => ?_,
    fun s target plain1 plain2 => ?_⟩
  · show toOutcome (callTo target 3 s) = _
    rw [callTo_of_pushes low high, toOutcome_ok]
  · obtain ⟨-, pc, -⟩ := (readPair_sameButDraws pair).fields
    have no_overlap : callPairOverlaps a s.sp = false := by
      rw [← Bool.not_eq_true, callPairOverlaps_iff]
      rintro (is_D8 | ⟨b, hb, stacked⟩)
      · exact not_D8 is_D8
      · exact apart b hb stacked
    rw [← pc] at low high
    show toOutcome (callPair a s) = _
    rw [callPair_of_apart even pair no_overlap, callTo_of_pushes low high, toOutcome_ok]
  · have called : exec (.callDa target) s = _ := congrArg toOutcome (callTo_of_isPlain plain1 plain2 target 3)
    refine ⟨_, called, rfl, rfl, get_pushedWord_low plain1 _, get_pushedWord_high plain2 _, rfl, rfl, rfl, rfl,
      fun b hb => ?_⟩
    simp only [List.mem_cons, List.not_mem_nil, or_false, not_or] at hb
    obtain ⟨-, not_sp, not_low, not_high⟩ := hb
    exact get_pushedWord_of_ne not_sp not_low not_high _

/-- A call onto two plain bytes leaves a state from which RET continues at the address after it. -/
theorem exec_ret_after_callTo {s t : State} {target : Word} {n : Nat} (plain1 : s.isPlain (s.sp - 1))
    (plain2 : s.isPlain (s.sp - 2)) (called : callTo target n s = .ok t) :
    exec .ret t = .next { s.pushedWord (s.next n) with sp := s.sp, pc := s.next n } := by
  have up1 : s.sp - 2 + 1 = s.sp - 1 := by bv_omega
  have up2 : s.sp - 2 + 2 = s.sp := by bv_omega
  rw [callTo_of_isPlain plain1 plain2] at called
  obtain rfl := Except.ok.inj called
  have popped : ofBytes ((s.pushedWord (s.next n)).get (s.sp - 2)) ((s.pushedWord (s.next n)).get (s.sp - 2 + 1)) =
      s.next n := by
    rw [up1, get_pushedWord_high plain2, get_pushedWord_low plain1, ofBytes_hi_lo]
  refine (exec_ret_of_isPlain plain2 (up1.symm ▸ plain1)).trans ?_
  exact congrArg₂ (fun sp pc => Host.Outcome.next { s.pushedWord (s.next n) with sp := sp, pc := pc }) up2 popped

/-- What a register reads once a call has returned: the two stack bytes keep the return address. -/
theorem get_returned {s : State} {a : RegAddr} (not_low : a ≠ s.sp - 1) (not_high : a ≠ s.sp - 2) (w pc : Word) :
    State.get { s.pushedWord w with sp := s.sp, pc := pc } a = s.get a := by
  by_cases is_sp : a = Config.spAddr
  · subst is_sp; rfl
  · exact (get_setSp (s.pushedWord w) is_sp s.sp).trans (get_pushedWord_of_ne is_sp not_low not_high w)

/-- Settles O47: either form pushes the address after it from a state that differs in its draws at most, and RET pops it. -/
theorem callThenReturn : Obligations.CallThenReturn := by
  intro s t i plain1 plain2 form ran
  have returns {u : State} {target : Word} {n : Nat} (same : SameButDraws s u) (called : callTo target n u = .ok t)
      (length : i.length = n) :
      ∃ v, exec .ret t = .next v ∧ v.pc = s.pc + BitVec.ofNat 16 i.length ∧ v.sp = s.sp ∧ v.flags = s.flags ∧
        v.sym = s.sym ∧ ∀ b, b ∉ [Config.flagsAddr, s.sp - 1, s.sp - 2] → v.get b = s.get b := by
    obtain ⟨-, pc, flags, sp, sym, -, -, -, cfg, -⟩ := same.fields
    rw [← sp] at plain1 plain2
    refine ⟨_, exec_ret_after_callTo ((isPlain_congr cfg _).2 plain1) ((isPlain_congr cfg _).2 plain2) called, ?_, sp,
      flags, sym, fun b hb => ?_⟩
    · show u.next n = _
      rw [State.next, pc, length]
    · simp only [List.mem_cons, List.not_mem_nil, or_false, not_or] at hb
      obtain ⟨not_flags, not_low, not_high⟩ := hb
      rw [← sp] at not_low not_high
      exact (get_returned not_low not_high _ _).trans (same.get not_flags)
  rcases form with ⟨target, rfl⟩ | ⟨a, rfl⟩
  · exact returns (.refl s) (toOutcome_eq_next.1 ran) rfl
  · obtain ⟨target, s1, -, pair, -, called⟩ := callPair_ok (toOutcome_eq_next.1 ran)
    exact returns (readPair_sameButDraws pair) called rfl

/-- Settles O42: the parity of the address is looked at before the pair is read, the overlap before anything is pushed. -/
theorem pairOperandFaults : Obligations.PairOperandFaults := by
  intro s a
  refine ⟨fun odd => ⟨?_, ?_⟩, fun target s1 even pair overlap => ?_⟩
  · show toOutcome (jumpPair a s) = _
    rw [jumpPair, pairTarget_of_odd odd, error_bind, toOutcome_error]
  · show toOutcome (callPair a s) = _
    rw [callPair, pairTarget_of_odd odd, error_bind, toOutcome_error]
  · obtain ⟨-, -, -, sp, -⟩ := (readPair_sameButDraws pair).fields
    show toOutcome (callPair a s) = _
    simp only [callPair, pairTarget_of_even even, pair, ok_bind, sp, callPairOverlaps_iff.2 overlap, if_true,
      toOutcome_error]

/-- Settles O43. -/
theorem jumpResult : Obligations.JumpResult := by
  refine ⟨fun s cc target => ?_, fun s s1 a target even pair => ?_⟩
  · show Host.Outcome.next (jumpIf cc target 3 s) = _
    unfold jumpIf
    split_ifs <;> rfl
  · show toOutcome (jumpPair a s) = _
    simp only [jumpPair, pairTarget_of_even even, pair, ok_bind, pure_eq_ok, toOutcome_ok]

/-- The target of a relative jump is the untruncated sum, modulo 65536 (R174). -/
theorem relativeTarget_eq (pc : Word) (off : Byte) :
    relativeTarget (pc + 2) off = BitVec.ofInt 16 (pc.toNat + 2 + off.toInt) := by
  rw [relativeTarget, BitVec.ofInt_add, BitVec.ofInt_add, BitVec.ofInt_natCast, BitVec.ofNat_toNat, BitVec.setWidth_eq]
  rfl

/-- Settles O44. -/
theorem relativeJumpResult : Obligations.RelativeJumpResult := by
  intro s cc off
  show Host.Outcome.next (jumpIf cc (relativeTarget (s.pc + 2) off) 2 s) = _
  unfold jumpIf
  split_ifs
  · rw [relativeTarget_eq]
  · rfl

end Sys2Proof.Machine
end

section
/-! PROOF. Boundaries, fetches and the CPU control instructions: what a step does before an instruction runs (60_exceptions.md
R226, R233, R236, R237, R241), the instruction it fetches (30_encoding.md R92), and DI, EI, IDLE and STOP. -/

namespace Sys2Proof.Machine

/-! ### Boundaries without a fetch -/

theorem step_of_settled {s : State} {r : Except Fault State} (settled : boundary s = .settled r) :
    step s = toOutcome r := by
  unfold step; rw [settled]

theorem step_reset {s : State} (reset : s.input.reset = true) : step s = .next (resetEvent s.dropInput) :=
  step_of_settled (r := .ok (resetEvent s.dropInput)) (by rw [boundary, if_pos reset])

/-- A release with SYM.2 = 1 is an interrupt entry in run mode RUN. -/
theorem release_of_sym2 {reason : UnpredictableReason} {s : State} (enabled : s.sym2 = true) :
    release reason s = interruptEntry { s with mode := .run } := by rw [release, if_pos enabled]

/-- A release with SYM.2 = 0 is unpredictable while WAKE_WITH_IRQ_DISABLED is open. -/
theorem release_of_open {reason : UnpredictableReason} {s : State} (disabled : s.sym2 = false)
    (is_open : s.cfg.wakeIrqDisabled = none) : release reason s = .error (.unpredictable reason) := by
  rw [release, if_neg (Bool.eq_false_iff.1 disabled), is_open]

/-- Settles O7: a reset comes before everything else, and its state is `resetEvent`. -/
theorem resetInputResets : Obligations.ResetInputResets := by
  intro s reset
  have disabled : (resetEvent s.dropInput).sym2 = false := by
    show resetSym.getLsbD 2 = false
    decide
  exact ⟨_, step_reset reset, rfl, rfl, disabled, rfl, rfl, rfl, List.map_map ..⟩

/-- Settles O8: the defaults of the reset state. -/
theorem stateAfterReset : Obligations.StateAfterReset := ⟨rfl, rfl, rfl, rfl, rfl, rfl⟩

/-- Settles O9: acceptance is the first thing a boundary in run mode RUN looks for. -/
theorem interruptIsAccepted : Obligations.InterruptIsAccepted := by
  intro s run quiet enabled pending
  apply step_of_settled
  simp only [boundary, quiet, run, enabled, pending, Bool.false_eq_true, if_false, Bool.and_self, if_true]

theorem step_idle {s : State} (idle : s.mode = .idle) (quiet : s.input.reset = false) :
    step s = toOutcome (if s.input.irq.pending then release .idleReleased s.dropInput else .ok s.dropInput) := by
  apply step_of_settled
  simp only [boundary, quiet, idle, Bool.false_eq_true, if_false]
  split_ifs <;> rfl

theorem step_stop {s : State} (stop : s.mode = .stop) (quiet : s.input.reset = false) :
    step s = toOutcome (if s.input.irq.externalPending then release .stopReleased s.dropInput else .ok s.dropInput) := by
  apply step_of_settled
  simp only [boundary, quiet, stop, Bool.false_eq_true, if_false]
  split_ifs <;> rfl

/-- Settles O12: a boundary in Idle mode waits, or is a release. -/
theorem idleBoundary : Obligations.IdleBoundary := by
  intro s idle quiet
  rw [step_idle idle quiet]
  refine ⟨fun pending enabled => ?_, fun pending disabled is_open => ?_, fun none_pending => ?_⟩
  · rw [if_pos pending, release_of_sym2 (s := s.dropInput) enabled]
  · rw [if_pos pending, release_of_open (s := s.dropInput) disabled is_open, toOutcome_error]
  · rw [if_neg (Bool.eq_false_iff.1 none_pending), toOutcome_ok]

/-- Settles O13: a boundary in Stop mode waits, or is a release by an external request. -/
theorem stopBoundary : Obligations.StopBoundary := by
  intro s stop quiet
  rw [step_stop stop quiet]
  refine ⟨fun external enabled => ?_, fun external disabled is_open => ?_, fun not_external => ?_⟩
  · rw [if_pos (IrqRequest.externalPending_eq_true.2 external), release_of_sym2 (s := s.dropInput) enabled]
  · rw [if_pos (IrqRequest.externalPending_eq_true.2 external), release_of_open (s := s.dropInput) disabled is_open,
      toOutcome_error]
  · rw [if_neg (mt IrqRequest.externalPending_eq_true.1 not_external), toOutcome_ok]

/-- Settles O15: with SYM.2 = 0 both boundaries lead to an execution from the state whose answer is used up. -/
theorem disabledRequestsAreInvisible : Obligations.DisabledRequestsAreInvisible := by
  intro s r q later run disabled
  have executes (request : IrqRequest) : boundary { s with inputs := ⟨false, request⟩ :: later } =
      .execute { s with inputs := later } :=
    boundary_execute run rfl (Bool.and_eq_false_iff.2 (.inl disabled))
  simp only [step, executes]

/-! ### The fetch -/

/-- A fetch reads its first byte from program memory. -/
theorem memRead_of_programByte {s : State} {a : Nat} {b : Byte} (byte : s.programByte a = some b) :
    memRead .program a s = .ok b := memRead_of_byteAt (space := .program) byte

theorem fetchInstr_of_outside {s : State} (outside : s.cfg.progSize ≤ s.pc.toNat) :
    fetchInstr s = .error (.addressOutOfRange .program s.pc.toNat) := by
  rw [fetchInstr, memRead_program_outside (.inr (Int.ofNat_le.2 outside)), error_bind]

theorem fetchInstr_of_undefined {s : State} {b : Byte} (byte : s.programByte s.pc.toNat = some b)
    (no_length : (opcodeCell b).length = none) : fetchInstr s = .error (.undefinedOpcode s.pc b) := by
  simp only [fetchInstr, memRead_of_programByte byte, ok_bind, no_length]

/-- With the first byte inside program memory, the length it gives says how many bytes follow. -/
theorem fetchInstr_of_tail {s : State} {b : Byte} {tail rest : List Byte} {i : Instr}
    (byte : s.programByte s.pc.toNat = some b) (length : (opcodeCell b).length = some (tail.length + 1))
    (fetched : fetchBytes s (s.pc.toNat + 1) tail.length = .ok tail) (decoded : decode (b :: tail) = .ok (i, rest)) :
    fetchInstr s = .ok i := by
  simp only [fetchInstr, memRead_of_programByte byte, ok_bind, length, Nat.add_sub_cancel, fetched, decoded]

theorem fetchInstr_of_tail_fault {s : State} {b : Byte} {n : Nat} {f : Fault}
    (byte : s.programByte s.pc.toNat = some b) (length : (opcodeCell b).length = some (n + 1))
    (faulted : fetchBytes s (s.pc.toNat + 1) n = .error f) : fetchInstr s = .error f := by
  simp only [fetchInstr, memRead_of_programByte byte, ok_bind, length, Nat.add_sub_cancel, faulted, error_bind]

/-- The bytes of an admitted instruction at pc are fetched as that instruction. -/
theorem fetchInstr_of_holdsBytes {s : State} {i : Instr} (admitted : i.longIndexPairOk = true)
    (holds : s.holdsBytes s.pc.toNat (encode i)) : fetchInstr s = .ok i := by
  obtain ⟨b, tail, bytes, length⟩ := encode_eq_cons i
  have decoded : decode (b :: tail) = .ok (i, []) := by
    simpa [bytes] using decodeOfEncode i [] admitted
  rw [bytes] at holds
  have first : s.programByte s.pc.toNat = some b := holds 0 (Nat.succ_pos _)
  have others : s.holdsBytes (s.pc.toNat + 1) tail := fun k hk => by
    rw [Nat.add_assoc, Nat.add_comm 1 k]
    exact holds (k + 1) (Nat.succ_lt_succ hk)
  exact fetchInstr_of_tail first length (fetchBytes_of_holdsBytes tail _ others) decoded

theorem step_of_fetch_error {s : State} {f : Fault} (run : s.mode = .run) (quiet : s.input.reset = false)
    (unaccepted : (s.sym2 && s.input.irq.pending) = false) (faulted : fetchInstr s.dropInput = .error f) :
    step s = .fault f := by
  rw [step_execute run quiet unaccepted, faulted]

/-- Settles O3: the list holds the bytes whose cell of the opcode map has no length, and both the decoder and the fetch look
at that cell first. -/
theorem undefinedFirstBytes : Obligations.UndefinedFirstBytes := by
  unfold Obligations.UndefinedFirstBytes
  intro undefinedBytes
  have no_length : ∀ b ∈ undefinedBytes, (opcodeCell b).length = none := by decide
  have no_other : ∀ b : Byte, (opcodeCell b).length = none → b ∈ undefinedBytes := by decide
  refine ⟨rfl, fun b rest => ?_, fun s b run quiet unaccepted byte listed => ?_⟩
  · rw [decode_eq_undefined, ← OpcodeCell.length_eq_none]
    exact ⟨no_other b, no_length b⟩
  · exact step_of_fetch_error run quiet unaccepted
      (fetchInstr_of_undefined (s := s.dropInput) byte (no_length b listed))

/-- Settles O5: the fetch gives the instruction whose bytes stand at pc. -/
theorem stepRunsDecodedInstruction : Obligations.StepRunsDecodedInstruction := by
  intro s i run quiet unaccepted admitted holds
  rw [step_execute run quiet unaccepted, fetchInstr_of_holdsBytes (s := s.dropInput) admitted holds]

/-- Settles O6: the first byte is fetched outside, or the bytes after it run over the end. -/
theorem fetchOutsideProgramMemory : Obligations.FetchOutsideProgramMemory := by
  intro s run quiet unaccepted
  refine ⟨fun outside => ?_, fun i first overruns => ?_⟩ <;> apply step_of_fetch_error run quiet unaccepted
  · exact fetchInstr_of_outside (s := s.dropInput) outside
  · obtain ⟨b, tail, bytes, length⟩ := encode_eq_cons i
    rw [bytes, List.head?_cons] at first
    rw [Instr.length, bytes, List.length_cons] at overruns
    have inside : s.pc.toNat < s.cfg.progSize := by
      by_contra outside
      rw [State.programByte, if_neg outside] at first
      cases first
    exact fetchInstr_of_tail_fault (s := s.dropInput) first length
      (fetchBytes_outside (s := s.dropInput) tail.length (s.pc.toNat + 1) inside (by
        show s.cfg.progSize < s.pc.toNat + 1 + tail.length
        omega))

/-! ### DI, EI, IDLE and STOP -/

/-- The masks of DI and EI touch bit 2 alone (46_cpu_control.md R201, R202). -/
theorem getLsbD_clear_bit2 (sym : Byte) {k : Nat} (h : k ≠ 2) : (sym &&& 0xFB#8).getLsbD k = sym.getLsbD k := by
  have mask : ∀ j < 8, j ≠ 2 → (0xFB#8).getLsbD j = true := by decide
  by_cases inside : k < 8
  · rw [BitVec.getLsbD_and, mask k inside h, Bool.and_true]
  · rw [BitVec.getLsbD_of_ge _ _ (Nat.le_of_not_lt inside), BitVec.getLsbD_of_ge _ _ (Nat.le_of_not_lt inside)]

theorem getLsbD_set_bit2 (sym : Byte) {k : Nat} (h : k ≠ 2) : (sym ||| 0x04#8).getLsbD k = sym.getLsbD k := by
  have mask : ∀ j < 8, j ≠ 2 → (0x04#8).getLsbD j = false := by decide
  by_cases inside : k < 8
  · rw [BitVec.getLsbD_or, mask k inside h, Bool.or_false]
  · rw [BitVec.getLsbD_of_ge _ _ (Nat.le_of_not_lt inside), BitVec.getLsbD_of_ge _ _ (Nat.le_of_not_lt inside)]

theorem sym2_clearSym2 (s : State) : s.clearSym2.sym2 = false := by
  show (s.sym &&& 0xFB#8).getLsbD 2 = false
  rw [BitVec.getLsbD_and]
  exact Bool.and_false _

theorem sym2_setSym2 (s : State) : s.setSym2.sym2 = true := by
  show (s.sym ||| 0x04#8).getLsbD 2 = true
  rw [BitVec.getLsbD_or]
  exact Bool.or_true _

/-- Settles O49: both write SYM under a mask of bit 2 and advance past one byte. -/
theorem interruptEnableInstructions : Obligations.InterruptEnableInstructions := by
  intro s
  exact ⟨⟨s.clearSym2.advance 1, rfl, rfl, sym2_clearSym2 s, fun k h => getLsbD_clear_bit2 s.sym h⟩,
    s.setSym2.advance 1, rfl, rfl, sym2_setSym2 s, fun k h => getLsbD_set_bit2 s.sym h⟩

/-- Settles O51: the two instructions as the model writes them. -/
theorem idleAndStopInstructions : Obligations.IdleAndStopInstructions := fun _ => ⟨rfl, rfl⟩

end Sys2Proof.Machine
end
